-- ==== Sys2Proof/Word.lean ====
section
/-! DEFINITION. The two word types of the core (spec R5, R20, R40): a `u8` and a `u16`. Everything that picks bits
out of a word or joins two (byte order, sign extension) stands in `Decode.lean` and `Machine/Ops.lean`. -/

namespace Sys2Proof

/-- A `u8`: a data register, a flag byte, every byte on the bus (R5, R54). -/
abbrev Byte := BitVec 8

/-- A `u16`: a bus address, the program counter, a pointer in memory (R5, R40). -/
abbrev Addr := BitVec 16

end Sys2Proof
end

