-- ==== Sys2Proof/Config.lean ====
section
/-! DEFINITION. What is fixed for a machine (R4): the addresses the core fixes, the parameters the spec leaves OPEN, and
the free values, which are constants with no body so that no proof can see what they are. -/

namespace Sys2Proof

namespace Config

/-- `STACK_BASE` (R4, R55, decision D8). -/
def stackBase : Addr := 0x0100#16

/-- `IRQ_VECTOR`: the low byte is here, the high byte at the next address (R4, R238, decision D6). -/
def irqVector : Addr := 0xFFFE#16

/-- `RESET_VECTOR`: the low byte is here, the high byte at the next address (R4, R260, decision D7). -/
def resetVector : Addr := 0xFFFC#16

/-- What a read gives where no device answers (R4, R44, R62). -/
def openBusByte : Byte := 0x00#8

/-- What a byte of RAM that nothing has written, or a byte of ROM past its image, reads as.
DESIGN CHOICE (unsafe, log 2): the spec leaves it a draw (R48, R49). -/
def unwrittenByte : Byte := 0x00#8

/-- The `TRAP_OPCODE` of `State.reset`. DESIGN CHOICE (unsafe, log 5): the spec leaves the parameter OPEN (R4, D3). -/
def resetTrapOpcode : Byte := 0x02#8

end Config

/-- `ROM_WRITE_POLICY` (R49, D20). -/
inductive RomWritePolicy where
  /-- the write is dropped -/
  | ignore
  /-- the byte is replaced -/
  | store
deriving DecidableEq, Repr, Inhabited

/-- `RTI_PC_BIAS` (R195, D12): the spec fixes 0 and names 1 as the alternative. -/
inductive RtiPcBias where
  | zero
  | one
deriving DecidableEq, Repr, Inhabited

/-- The launch parameters of R4 that are plain values. A state carries them and no step changes them, so a
statement about every state is a statement about every value of them. -/
structure Params where
  /-- `TRAP_OPCODE` (R219, D3) -/
  trapOpcode : Byte
  /-- `RTI_PC_BIAS` (R195, D12) -/
  rtiPcBias : RtiPcBias
  /-- `STOP_PCS` (R245, D33) -/
  stopPcs : List Addr
deriving DecidableEq, Repr

/-- One access a peripheral received: what it was asked and, for a read, what it answered (R42). -/
inductive Access where
  | read (addr : Addr) (answer : Byte)
  | write (addr : Addr) (value : Byte)
deriving DecidableEq, Repr

/-- One entry of the history of accesses that R47 lets a peripheral's answer depend on. `device` is the device's
place in mapping order (0 for the first one mapped), which later `Map` calls do not change. -/
structure BusCall where
  device : Nat
  access : Access
deriving DecidableEq, Repr

/-- One bus access of the TRAP callback (R220). -/
inductive BusAction where
  | read (addr : Addr)
  | write (addr : Addr) (value : Byte)
deriving DecidableEq, Repr, Inhabited

/-- What one call of the TRAP callback does (R220): its bus accesses in order, and the values it leaves in the
registers and flags it may write. PC, SP, B, inIRQ and icount are not among them. -/
structure TrapReturn where
  actions : List BusAction
  a : Byte
  x : Byte
  y : Byte
  c : Bool
  z : Bool
  i : Bool
  d : Bool
  v : Bool
  n : Bool
deriving DecidableEq, Repr, Inhabited

/-- How one call of the TRAP callback ends (R220, U11): it returns, or it never does. -/
inductive TrapCallback where
  | returns (r : TrapReturn)
  | neverReturns
deriving DecidableEq, Repr

namespace Config

/-- FREE VALUE (log 9): what a peripheral answers to a read when no answer is queued: device, address, and the
history of all peripheral accesses before it (R47, U8). -/
opaque peripheralByte : Nat → Addr → List BusCall → Byte

/-- FREE VALUE (log 10): whether a peripheral requests an interrupt when no answer is queued: device, how often
it has been asked before, and the history of all peripheral accesses so far (R47, R236, U8, U18). -/
opaque peripheralIrq : Nat → Nat → List BusCall → Bool

/-- FREE VALUE (log 11): what the TRAP callback does when no response is queued: the selectors passed so far, this
call's first (R220, U11). -/
opaque trapReturn : List Byte → TrapReturn

end Config

end Sys2Proof
end

