-- ==== Sys2Proof/Syntax.lean ====
section
/-! DEFINITION. The instructions (R80-R83): the thirteen addressing modes, the 57 mnemonics, and one constructor of
`Instr` for each of the 152 rows of spec/opcode_table.json, carrying that row's operand bytes. Two-byte operands are
held as the `u16` they mean; the byte order is the decoder's. -/

namespace Sys2Proof

/-- The addressing modes, by the tags of R81. -/
inductive Mode where
  | IMP | ACC | IMM | ZP | ZPX | ZPY | ABS | ABSX | ABSY | IND | INDX | INDY | REL
deriving DecidableEq, Repr

/-- The mnemonics of the opcode table (R82, R83, R219). -/
inductive Mnemonic where
  | LDA | LDX | LDY | STA | STX | STY
  | TAX | TAY | TXA | TYA | TSX | TXS | PHA | PHP | PLA | PLP
  | ADC | SBC | CMP | CPX | CPY | INC | DEC | INX | INY | DEX | DEY
  | AND | ORA | EOR | BIT | ASL | LSR | ROL | ROR
  | JMP | JSR | RTS | RTI | BCC | BCS | BEQ | BNE | BMI | BPL | BVC | BVS
  | CLC | CLD | CLI | CLV | SEC | SED | SEI | NOP | BRK | TRAP
deriving DecidableEq, Repr

/-- The addressing forms that name a byte of memory, with their operand bytes (R88-R91, R93, R94). -/
inductive MemForm where
  | zp (zp : Byte)
  | zpX (zp : Byte)
  | zpY (zp : Byte)
  | abs (addr : Addr)
  | absX (addr : Addr)
  | absY (addr : Addr)
  | indX (zp : Byte)
  | indY (zp : Byte)
deriving DecidableEq, Repr

/-- What an instruction reads its operand byte from: the instruction stream (R87) or memory. -/
inductive ReadForm where
  | imm (imm : Byte)
  | mem (m : MemForm)
deriving DecidableEq, Repr

/-- What a shift works on: the register A (R86) or a byte of memory (R174). -/
inductive ShiftForm where
  | acc
  | mem (m : MemForm)
deriving DecidableEq, Repr

/-- The instructions, one constructor per row of spec/opcode_table.json. -/
inductive Instr where
  -- file 41: loads and stores
  | ldaImm (imm : Byte) | ldaZp (zp : Byte) | ldaZpX (zp : Byte) | ldaAbs (addr : Addr) | ldaAbsX (addr : Addr) | ldaAbsY (addr : Addr) | ldaIndX (zp : Byte) | ldaIndY (zp : Byte)
  | ldxImm (imm : Byte) | ldxZp (zp : Byte) | ldxZpY (zp : Byte) | ldxAbs (addr : Addr) | ldxAbsY (addr : Addr)
  | ldyImm (imm : Byte) | ldyZp (zp : Byte) | ldyZpX (zp : Byte) | ldyAbs (addr : Addr) | ldyAbsX (addr : Addr)
  | staZp (zp : Byte) | staZpX (zp : Byte) | staAbs (addr : Addr) | staAbsX (addr : Addr) | staAbsY (addr : Addr) | staIndX (zp : Byte) | staIndY (zp : Byte)
  | stxZp (zp : Byte) | stxZpY (zp : Byte) | stxAbs (addr : Addr)
  | styZp (zp : Byte) | styZpX (zp : Byte) | styAbs (addr : Addr)
  -- file 42: transfers and stack
  | tax
  | tay
  | txa
  | tya
  | tsx
  | txs
  | pha
  | php
  | pla
  | plp
  -- file 43: arithmetic
  | adcImm (imm : Byte) | adcZp (zp : Byte) | adcZpX (zp : Byte) | adcAbs (addr : Addr) | adcAbsX (addr : Addr) | adcAbsY (addr : Addr) | adcIndX (zp : Byte) | adcIndY (zp : Byte)
  | sbcImm (imm : Byte) | sbcZp (zp : Byte) | sbcZpX (zp : Byte) | sbcAbs (addr : Addr) | sbcAbsX (addr : Addr) | sbcAbsY (addr : Addr) | sbcIndX (zp : Byte) | sbcIndY (zp : Byte)
  | cmpImm (imm : Byte) | cmpZp (zp : Byte) | cmpZpX (zp : Byte) | cmpAbs (addr : Addr) | cmpAbsX (addr : Addr) | cmpAbsY (addr : Addr) | cmpIndX (zp : Byte) | cmpIndY (zp : Byte)
  | cpxImm (imm : Byte) | cpxZp (zp : Byte) | cpxAbs (addr : Addr)
  | cpyImm (imm : Byte) | cpyZp (zp : Byte) | cpyAbs (addr : Addr)
  | incZp (zp : Byte) | incZpX (zp : Byte) | incAbs (addr : Addr) | incAbsX (addr : Addr)
  | decZp (zp : Byte) | decZpX (zp : Byte) | decAbs (addr : Addr) | decAbsX (addr : Addr)
  | inx
  | iny
  | dex
  | dey
  -- file 44: logic and shifts
  | andImm (imm : Byte) | andZp (zp : Byte) | andZpX (zp : Byte) | andAbs (addr : Addr) | andAbsX (addr : Addr) | andAbsY (addr : Addr) | andIndX (zp : Byte) | andIndY (zp : Byte)
  | oraImm (imm : Byte) | oraZp (zp : Byte) | oraZpX (zp : Byte) | oraAbs (addr : Addr) | oraAbsX (addr : Addr) | oraAbsY (addr : Addr) | oraIndX (zp : Byte) | oraIndY (zp : Byte)
  | eorImm (imm : Byte) | eorZp (zp : Byte) | eorZpX (zp : Byte) | eorAbs (addr : Addr) | eorAbsX (addr : Addr) | eorAbsY (addr : Addr) | eorIndX (zp : Byte) | eorIndY (zp : Byte)
  | bitZp (zp : Byte) | bitAbs (addr : Addr)
  | aslAcc | aslZp (zp : Byte) | aslZpX (zp : Byte) | aslAbs (addr : Addr) | aslAbsX (addr : Addr)
  | lsrAcc | lsrZp (zp : Byte) | lsrZpX (zp : Byte) | lsrAbs (addr : Addr) | lsrAbsX (addr : Addr)
  | rolAcc | rolZp (zp : Byte) | rolZpX (zp : Byte) | rolAbs (addr : Addr) | rolAbsX (addr : Addr)
  | rorAcc | rorZp (zp : Byte) | rorZpX (zp : Byte) | rorAbs (addr : Addr) | rorAbsX (addr : Addr)
  -- file 45: control
  | jmpAbs (addr : Addr) | jmpInd (ptr : Addr)
  | jsr (addr : Addr)
  | rts
  | rti
  | bcc (rel : Byte)
  | bcs (rel : Byte)
  | beq (rel : Byte)
  | bne (rel : Byte)
  | bmi (rel : Byte)
  | bpl (rel : Byte)
  | bvc (rel : Byte)
  | bvs (rel : Byte)
  -- file 46: flags and system
  | clc
  | cld
  | cli
  | clv
  | sec
  | sed
  | sei
  | nop
  | brk
  | trap
deriving DecidableEq, Repr

/-- The mnemonic of an instruction's opcode-table row. -/
def Instr.mnemonic : Instr → Mnemonic
  | .ldaImm _ | .ldaZp _ | .ldaZpX _ | .ldaAbs _ | .ldaAbsX _ | .ldaAbsY _ | .ldaIndX _ | .ldaIndY _ => .LDA
  | .ldxImm _ | .ldxZp _ | .ldxZpY _ | .ldxAbs _ | .ldxAbsY _ => .LDX
  | .ldyImm _ | .ldyZp _ | .ldyZpX _ | .ldyAbs _ | .ldyAbsX _ => .LDY
  | .staZp _ | .staZpX _ | .staAbs _ | .staAbsX _ | .staAbsY _ | .staIndX _ | .staIndY _ => .STA
  | .stxZp _ | .stxZpY _ | .stxAbs _ => .STX
  | .styZp _ | .styZpX _ | .styAbs _ => .STY
  | .tax => .TAX
  | .tay => .TAY
  | .txa => .TXA
  | .tya => .TYA
  | .tsx => .TSX
  | .txs => .TXS
  | .pha => .PHA
  | .php => .PHP
  | .pla => .PLA
  | .plp => .PLP
  | .adcImm _ | .adcZp _ | .adcZpX _ | .adcAbs _ | .adcAbsX _ | .adcAbsY _ | .adcIndX _ | .adcIndY _ => .ADC
  | .sbcImm _ | .sbcZp _ | .sbcZpX _ | .sbcAbs _ | .sbcAbsX _ | .sbcAbsY _ | .sbcIndX _ | .sbcIndY _ => .SBC
  | .cmpImm _ | .cmpZp _ | .cmpZpX _ | .cmpAbs _ | .cmpAbsX _ | .cmpAbsY _ | .cmpIndX _ | .cmpIndY _ => .CMP
  | .cpxImm _ | .cpxZp _ | .cpxAbs _ => .CPX
  | .cpyImm _ | .cpyZp _ | .cpyAbs _ => .CPY
  | .incZp _ | .incZpX _ | .incAbs _ | .incAbsX _ => .INC
  | .decZp _ | .decZpX _ | .decAbs _ | .decAbsX _ => .DEC
  | .inx => .INX
  | .iny => .INY
  | .dex => .DEX
  | .dey => .DEY
  | .andImm _ | .andZp _ | .andZpX _ | .andAbs _ | .andAbsX _ | .andAbsY _ | .andIndX _ | .andIndY _ => .AND
  | .oraImm _ | .oraZp _ | .oraZpX _ | .oraAbs _ | .oraAbsX _ | .oraAbsY _ | .oraIndX _ | .oraIndY _ => .ORA
  | .eorImm _ | .eorZp _ | .eorZpX _ | .eorAbs _ | .eorAbsX _ | .eorAbsY _ | .eorIndX _ | .eorIndY _ => .EOR
  | .bitZp _ | .bitAbs _ => .BIT
  | .aslAcc | .aslZp _ | .aslZpX _ | .aslAbs _ | .aslAbsX _ => .ASL
  | .lsrAcc | .lsrZp _ | .lsrZpX _ | .lsrAbs _ | .lsrAbsX _ => .LSR
  | .rolAcc | .rolZp _ | .rolZpX _ | .rolAbs _ | .rolAbsX _ => .ROL
  | .rorAcc | .rorZp _ | .rorZpX _ | .rorAbs _ | .rorAbsX _ => .ROR
  | .jmpAbs _ | .jmpInd _ => .JMP
  | .jsr _ => .JSR
  | .rts => .RTS
  | .rti => .RTI
  | .bcc _ => .BCC
  | .bcs _ => .BCS
  | .beq _ => .BEQ
  | .bne _ => .BNE
  | .bmi _ => .BMI
  | .bpl _ => .BPL
  | .bvc _ => .BVC
  | .bvs _ => .BVS
  | .clc => .CLC
  | .cld => .CLD
  | .cli => .CLI
  | .clv => .CLV
  | .sec => .SEC
  | .sed => .SED
  | .sei => .SEI
  | .nop => .NOP
  | .brk => .BRK
  | .trap => .TRAP

/-- The addressing mode of an instruction's opcode-table row. -/
def Instr.mode : Instr → Mode
  | .tax | .tay | .txa | .tya | .tsx | .txs | .pha | .php
  | .pla | .plp | .inx | .iny | .dex | .dey | .rts | .rti
  | .clc | .cld | .cli | .clv | .sec | .sed | .sei | .nop
  | .brk | .trap => .IMP
  | .aslAcc | .lsrAcc | .rolAcc | .rorAcc => .ACC
  | .ldaImm _ | .ldxImm _ | .ldyImm _ | .adcImm _ | .sbcImm _ | .cmpImm _ | .cpxImm _ | .cpyImm _
  | .andImm _ | .oraImm _ | .eorImm _ => .IMM
  | .ldaZp _ | .ldxZp _ | .ldyZp _ | .staZp _ | .stxZp _ | .styZp _ | .adcZp _ | .sbcZp _
  | .cmpZp _ | .cpxZp _ | .cpyZp _ | .incZp _ | .decZp _ | .andZp _ | .oraZp _ | .eorZp _
  | .bitZp _ | .aslZp _ | .lsrZp _ | .rolZp _ | .rorZp _ => .ZP
  | .ldaZpX _ | .ldyZpX _ | .staZpX _ | .styZpX _ | .adcZpX _ | .sbcZpX _ | .cmpZpX _ | .incZpX _
  | .decZpX _ | .andZpX _ | .oraZpX _ | .eorZpX _ | .aslZpX _ | .lsrZpX _ | .rolZpX _ | .rorZpX _ => .ZPX
  | .ldxZpY _ | .stxZpY _ => .ZPY
  | .ldaAbs _ | .ldxAbs _ | .ldyAbs _ | .staAbs _ | .stxAbs _ | .styAbs _ | .adcAbs _ | .sbcAbs _
  | .cmpAbs _ | .cpxAbs _ | .cpyAbs _ | .incAbs _ | .decAbs _ | .andAbs _ | .oraAbs _ | .eorAbs _
  | .bitAbs _ | .aslAbs _ | .lsrAbs _ | .rolAbs _ | .rorAbs _ | .jmpAbs _ | .jsr _ => .ABS
  | .ldaAbsX _ | .ldyAbsX _ | .staAbsX _ | .adcAbsX _ | .sbcAbsX _ | .cmpAbsX _ | .incAbsX _ | .decAbsX _
  | .andAbsX _ | .oraAbsX _ | .eorAbsX _ | .aslAbsX _ | .lsrAbsX _ | .rolAbsX _ | .rorAbsX _ => .ABSX
  | .ldaAbsY _ | .ldxAbsY _ | .staAbsY _ | .adcAbsY _ | .sbcAbsY _ | .cmpAbsY _ | .andAbsY _ | .oraAbsY _
  | .eorAbsY _ => .ABSY
  | .jmpInd _ => .IND
  | .ldaIndX _ | .staIndX _ | .adcIndX _ | .sbcIndX _ | .cmpIndX _ | .andIndX _ | .oraIndX _ | .eorIndX _ => .INDX
  | .ldaIndY _ | .staIndY _ | .adcIndY _ | .sbcIndY _ | .cmpIndY _ | .andIndY _ | .oraIndY _ | .eorIndY _ => .INDY
  | .bcc _ | .bcs _ | .beq _ | .bne _ | .bmi _ | .bpl _ | .bvc _ | .bvs _ => .REL

end Sys2Proof
end

