-- ==== Sys2Proof/Decode.lean ====
section
/-! DEFINITION. The opcode table (R82, R83), the decoder, total on any bytes and refusing by name (R96, R231, R232), and
after it the encoder, written out instruction by instruction from the "Encoding" lines of R120-R219. Byte order of a
two-byte operand (R52, R81) is decided here once. -/

namespace Sys2Proof

/-- `hi:lo`, two bytes joined (R5). -/
def joinBytes (hi lo : Byte) : Addr := hi ++ lo

/-- `w[7:0]` (R5, R51). -/
def lowByte (w : Addr) : Byte := w.extractLsb' 0 8

/-- `w[15:8]` (R5, R51). -/
def highByte (w : Addr) : Byte := w.extractLsb' 8 8

/-- How many operand bytes follow the opcode byte in a mode (R80, R81). -/
def Mode.operandBytes : Mode → Nat
  | .IMP | .ACC => 0
  | .IMM | .ZP | .ZPX | .ZPY | .INDX | .INDY | .REL => 1
  | .ABS | .ABSX | .ABSY | .IND => 2

/-- A row of the opcode table: the opcode byte and its descriptor, that is the handler and the mode (R82). -/
structure Row where
  opcode : Byte
  handler : Mnemonic
  mode : Mode
deriving DecidableEq, Repr

/-- Line 0x of the map of R83. -/
def opcodeRows0 : List Row := [
  ⟨0x00#8, .BRK, .IMP⟩,
  ⟨0x01#8, .ORA, .INDX⟩,
  ⟨0x05#8, .ORA, .ZP⟩,
  ⟨0x06#8, .ASL, .ZP⟩,
  ⟨0x08#8, .PHP, .IMP⟩,
  ⟨0x09#8, .ORA, .IMM⟩,
  ⟨0x0A#8, .ASL, .ACC⟩,
  ⟨0x0D#8, .ORA, .ABS⟩,
  ⟨0x0E#8, .ASL, .ABS⟩]

/-- Line 1x of the map of R83. -/
def opcodeRows1 : List Row := [
  ⟨0x10#8, .BPL, .REL⟩,
  ⟨0x11#8, .ORA, .INDY⟩,
  ⟨0x15#8, .ORA, .ZPX⟩,
  ⟨0x16#8, .ASL, .ZPX⟩,
  ⟨0x18#8, .CLC, .IMP⟩,
  ⟨0x19#8, .ORA, .ABSY⟩,
  ⟨0x1D#8, .ORA, .ABSX⟩,
  ⟨0x1E#8, .ASL, .ABSX⟩]

/-- Line 2x of the map of R83. -/
def opcodeRows2 : List Row := [
  ⟨0x20#8, .JSR, .ABS⟩,
  ⟨0x21#8, .AND, .INDX⟩,
  ⟨0x24#8, .BIT, .ZP⟩,
  ⟨0x25#8, .AND, .ZP⟩,
  ⟨0x26#8, .ROL, .ZP⟩,
  ⟨0x28#8, .PLP, .IMP⟩,
  ⟨0x29#8, .AND, .IMM⟩,
  ⟨0x2A#8, .ROL, .ACC⟩,
  ⟨0x2C#8, .BIT, .ABS⟩,
  ⟨0x2D#8, .AND, .ABS⟩,
  ⟨0x2E#8, .ROL, .ABS⟩]

/-- Line 3x of the map of R83. -/
def opcodeRows3 : List Row := [
  ⟨0x30#8, .BMI, .REL⟩,
  ⟨0x31#8, .AND, .INDY⟩,
  ⟨0x35#8, .AND, .ZPX⟩,
  ⟨0x36#8, .ROL, .ZPX⟩,
  ⟨0x38#8, .SEC, .IMP⟩,
  ⟨0x39#8, .AND, .ABSY⟩,
  ⟨0x3D#8, .AND, .ABSX⟩,
  ⟨0x3E#8, .ROL, .ABSX⟩]

/-- Line 4x of the map of R83. -/
def opcodeRows4 : List Row := [
  ⟨0x40#8, .RTI, .IMP⟩,
  ⟨0x41#8, .EOR, .INDX⟩,
  ⟨0x45#8, .EOR, .ZP⟩,
  ⟨0x46#8, .LSR, .ZP⟩,
  ⟨0x48#8, .PHA, .IMP⟩,
  ⟨0x49#8, .EOR, .IMM⟩,
  ⟨0x4A#8, .LSR, .ACC⟩,
  ⟨0x4C#8, .JMP, .ABS⟩,
  ⟨0x4D#8, .EOR, .ABS⟩,
  ⟨0x4E#8, .LSR, .ABS⟩]

/-- Line 5x of the map of R83. -/
def opcodeRows5 : List Row := [
  ⟨0x50#8, .BVC, .REL⟩,
  ⟨0x51#8, .EOR, .INDY⟩,
  ⟨0x55#8, .EOR, .ZPX⟩,
  ⟨0x56#8, .LSR, .ZPX⟩,
  ⟨0x58#8, .CLI, .IMP⟩,
  ⟨0x59#8, .EOR, .ABSY⟩,
  ⟨0x5D#8, .EOR, .ABSX⟩,
  ⟨0x5E#8, .LSR, .ABSX⟩]

/-- Line 6x of the map of R83. -/
def opcodeRows6 : List Row := [
  ⟨0x60#8, .RTS, .IMP⟩,
  ⟨0x61#8, .ADC, .INDX⟩,
  ⟨0x65#8, .ADC, .ZP⟩,
  ⟨0x66#8, .ROR, .ZP⟩,
  ⟨0x68#8, .PLA, .IMP⟩,
  ⟨0x69#8, .ADC, .IMM⟩,
  ⟨0x6A#8, .ROR, .ACC⟩,
  ⟨0x6C#8, .JMP, .IND⟩,
  ⟨0x6D#8, .ADC, .ABS⟩,
  ⟨0x6E#8, .ROR, .ABS⟩]

/-- Line 7x of the map of R83. -/
def opcodeRows7 : List Row := [
  ⟨0x70#8, .BVS, .REL⟩,
  ⟨0x71#8, .ADC, .INDY⟩,
  ⟨0x75#8, .ADC, .ZPX⟩,
  ⟨0x76#8, .ROR, .ZPX⟩,
  ⟨0x78#8, .SEI, .IMP⟩,
  ⟨0x79#8, .ADC, .ABSY⟩,
  ⟨0x7D#8, .ADC, .ABSX⟩,
  ⟨0x7E#8, .ROR, .ABSX⟩]

/-- Line 8x of the map of R83. -/
def opcodeRows8 : List Row := [
  ⟨0x81#8, .STA, .INDX⟩,
  ⟨0x84#8, .STY, .ZP⟩,
  ⟨0x85#8, .STA, .ZP⟩,
  ⟨0x86#8, .STX, .ZP⟩,
  ⟨0x88#8, .DEY, .IMP⟩,
  ⟨0x8A#8, .TXA, .IMP⟩,
  ⟨0x8C#8, .STY, .ABS⟩,
  ⟨0x8D#8, .STA, .ABS⟩,
  ⟨0x8E#8, .STX, .ABS⟩]

/-- Line 9x of the map of R83. -/
def opcodeRows9 : List Row := [
  ⟨0x90#8, .BCC, .REL⟩,
  ⟨0x91#8, .STA, .INDY⟩,
  ⟨0x94#8, .STY, .ZPX⟩,
  ⟨0x95#8, .STA, .ZPX⟩,
  ⟨0x96#8, .STX, .ZPY⟩,
  ⟨0x98#8, .TYA, .IMP⟩,
  ⟨0x99#8, .STA, .ABSY⟩,
  ⟨0x9A#8, .TXS, .IMP⟩,
  ⟨0x9D#8, .STA, .ABSX⟩]

/-- Line Ax of the map of R83. -/
def opcodeRowsA : List Row := [
  ⟨0xA0#8, .LDY, .IMM⟩,
  ⟨0xA1#8, .LDA, .INDX⟩,
  ⟨0xA2#8, .LDX, .IMM⟩,
  ⟨0xA4#8, .LDY, .ZP⟩,
  ⟨0xA5#8, .LDA, .ZP⟩,
  ⟨0xA6#8, .LDX, .ZP⟩,
  ⟨0xA8#8, .TAY, .IMP⟩,
  ⟨0xA9#8, .LDA, .IMM⟩,
  ⟨0xAA#8, .TAX, .IMP⟩,
  ⟨0xAC#8, .LDY, .ABS⟩,
  ⟨0xAD#8, .LDA, .ABS⟩,
  ⟨0xAE#8, .LDX, .ABS⟩]

/-- Line Bx of the map of R83. -/
def opcodeRowsB : List Row := [
  ⟨0xB0#8, .BCS, .REL⟩,
  ⟨0xB1#8, .LDA, .INDY⟩,
  ⟨0xB4#8, .LDY, .ZPX⟩,
  ⟨0xB5#8, .LDA, .ZPX⟩,
  ⟨0xB6#8, .LDX, .ZPY⟩,
  ⟨0xB8#8, .CLV, .IMP⟩,
  ⟨0xB9#8, .LDA, .ABSY⟩,
  ⟨0xBA#8, .TSX, .IMP⟩,
  ⟨0xBC#8, .LDY, .ABSX⟩,
  ⟨0xBD#8, .LDA, .ABSX⟩,
  ⟨0xBE#8, .LDX, .ABSY⟩]

/-- Line Cx of the map of R83. -/
def opcodeRowsC : List Row := [
  ⟨0xC0#8, .CPY, .IMM⟩,
  ⟨0xC1#8, .CMP, .INDX⟩,
  ⟨0xC4#8, .CPY, .ZP⟩,
  ⟨0xC5#8, .CMP, .ZP⟩,
  ⟨0xC6#8, .DEC, .ZP⟩,
  ⟨0xC8#8, .INY, .IMP⟩,
  ⟨0xC9#8, .CMP, .IMM⟩,
  ⟨0xCA#8, .DEX, .IMP⟩,
  ⟨0xCC#8, .CPY, .ABS⟩,
  ⟨0xCD#8, .CMP, .ABS⟩,
  ⟨0xCE#8, .DEC, .ABS⟩]

/-- Line Dx of the map of R83. -/
def opcodeRowsD : List Row := [
  ⟨0xD0#8, .BNE, .REL⟩,
  ⟨0xD1#8, .CMP, .INDY⟩,
  ⟨0xD5#8, .CMP, .ZPX⟩,
  ⟨0xD6#8, .DEC, .ZPX⟩,
  ⟨0xD8#8, .CLD, .IMP⟩,
  ⟨0xD9#8, .CMP, .ABSY⟩,
  ⟨0xDD#8, .CMP, .ABSX⟩,
  ⟨0xDE#8, .DEC, .ABSX⟩]

/-- Line Ex of the map of R83. -/
def opcodeRowsE : List Row := [
  ⟨0xE0#8, .CPX, .IMM⟩,
  ⟨0xE1#8, .SBC, .INDX⟩,
  ⟨0xE4#8, .CPX, .ZP⟩,
  ⟨0xE5#8, .SBC, .ZP⟩,
  ⟨0xE6#8, .INC, .ZP⟩,
  ⟨0xE8#8, .INX, .IMP⟩,
  ⟨0xE9#8, .SBC, .IMM⟩,
  ⟨0xEA#8, .NOP, .IMP⟩,
  ⟨0xEC#8, .CPX, .ABS⟩,
  ⟨0xED#8, .SBC, .ABS⟩,
  ⟨0xEE#8, .INC, .ABS⟩]

/-- Line Fx of the map of R83. -/
def opcodeRowsF : List Row := [
  ⟨0xF0#8, .BEQ, .REL⟩,
  ⟨0xF1#8, .SBC, .INDY⟩,
  ⟨0xF5#8, .SBC, .ZPX⟩,
  ⟨0xF6#8, .INC, .ZPX⟩,
  ⟨0xF8#8, .SED, .IMP⟩,
  ⟨0xF9#8, .SBC, .ABSY⟩,
  ⟨0xFD#8, .SBC, .ABSX⟩,
  ⟨0xFE#8, .INC, .ABSX⟩]

/-- The 151 rows of the map of R83. -/
def opcodeTable : List Row :=
  opcodeRows0 ++ opcodeRows1 ++ opcodeRows2 ++ opcodeRows3 ++
  opcodeRows4 ++ opcodeRows5 ++ opcodeRows6 ++ opcodeRows7 ++
  opcodeRows8 ++ opcodeRows9 ++ opcodeRowsA ++ opcodeRowsB ++
  opcodeRowsC ++ opcodeRowsD ++ opcodeRowsE ++ opcodeRowsF

/-- The descriptor of an opcode byte, TRAP's first (R82, R97); none: an unknown instruction (R96). -/
def descriptor (trapOp op : Byte) : Option (Mnemonic × Mode) :=
  if op = trapOp then some (.TRAP, .IMP)
  else (opcodeTable.find? (fun r => r.opcode == op)).map (fun r => (r.handler, r.mode))

/-- The instruction a handler and a mode make with the operand bytes `b1` and `b2` (unused ones ignored); none: the
handler does not support the mode (R103, R232). -/
def build (h : Mnemonic) (m : Mode) (b1 b2 : Byte) : Option Instr :=
  match h with
  | .LDA => match m with
    | .IMM => some (.ldaImm b1)
    | .ZP => some (.ldaZp b1)
    | .ZPX => some (.ldaZpX b1)
    | .ABS => some (.ldaAbs (joinBytes b2 b1))
    | .ABSX => some (.ldaAbsX (joinBytes b2 b1))
    | .ABSY => some (.ldaAbsY (joinBytes b2 b1))
    | .INDX => some (.ldaIndX b1)
    | .INDY => some (.ldaIndY b1)
    | _ => none
  | .LDX => match m with
    | .IMM => some (.ldxImm b1)
    | .ZP => some (.ldxZp b1)
    | .ZPY => some (.ldxZpY b1)
    | .ABS => some (.ldxAbs (joinBytes b2 b1))
    | .ABSY => some (.ldxAbsY (joinBytes b2 b1))
    | _ => none
  | .LDY => match m with
    | .IMM => some (.ldyImm b1)
    | .ZP => some (.ldyZp b1)
    | .ZPX => some (.ldyZpX b1)
    | .ABS => some (.ldyAbs (joinBytes b2 b1))
    | .ABSX => some (.ldyAbsX (joinBytes b2 b1))
    | _ => none
  | .STA => match m with
    | .ZP => some (.staZp b1)
    | .ZPX => some (.staZpX b1)
    | .ABS => some (.staAbs (joinBytes b2 b1))
    | .ABSX => some (.staAbsX (joinBytes b2 b1))
    | .ABSY => some (.staAbsY (joinBytes b2 b1))
    | .INDX => some (.staIndX b1)
    | .INDY => some (.staIndY b1)
    | _ => none
  | .STX => match m with
    | .ZP => some (.stxZp b1)
    | .ZPY => some (.stxZpY b1)
    | .ABS => some (.stxAbs (joinBytes b2 b1))
    | _ => none
  | .STY => match m with
    | .ZP => some (.styZp b1)
    | .ZPX => some (.styZpX b1)
    | .ABS => some (.styAbs (joinBytes b2 b1))
    | _ => none
  | .TAX => match m with
    | .IMP => some .tax
    | _ => none
  | .TAY => match m with
    | .IMP => some .tay
    | _ => none
  | .TXA => match m with
    | .IMP => some .txa
    | _ => none
  | .TYA => match m with
    | .IMP => some .tya
    | _ => none
  | .TSX => match m with
    | .IMP => some .tsx
    | _ => none
  | .TXS => match m with
    | .IMP => some .txs
    | _ => none
  | .PHA => match m with
    | .IMP => some .pha
    | _ => none
  | .PHP => match m with
    | .IMP => some .php
    | _ => none
  | .PLA => match m with
    | .IMP => some .pla
    | _ => none
  | .PLP => match m with
    | .IMP => some .plp
    | _ => none
  | .ADC => match m with
    | .IMM => some (.adcImm b1)
    | .ZP => some (.adcZp b1)
    | .ZPX => some (.adcZpX b1)
    | .ABS => some (.adcAbs (joinBytes b2 b1))
    | .ABSX => some (.adcAbsX (joinBytes b2 b1))
    | .ABSY => some (.adcAbsY (joinBytes b2 b1))
    | .INDX => some (.adcIndX b1)
    | .INDY => some (.adcIndY b1)
    | _ => none
  | .SBC => match m with
    | .IMM => some (.sbcImm b1)
    | .ZP => some (.sbcZp b1)
    | .ZPX => some (.sbcZpX b1)
    | .ABS => some (.sbcAbs (joinBytes b2 b1))
    | .ABSX => some (.sbcAbsX (joinBytes b2 b1))
    | .ABSY => some (.sbcAbsY (joinBytes b2 b1))
    | .INDX => some (.sbcIndX b1)
    | .INDY => some (.sbcIndY b1)
    | _ => none
  | .CMP => match m with
    | .IMM => some (.cmpImm b1)
    | .ZP => some (.cmpZp b1)
    | .ZPX => some (.cmpZpX b1)
    | .ABS => some (.cmpAbs (joinBytes b2 b1))
    | .ABSX => some (.cmpAbsX (joinBytes b2 b1))
    | .ABSY => some (.cmpAbsY (joinBytes b2 b1))
    | .INDX => some (.cmpIndX b1)
    | .INDY => some (.cmpIndY b1)
    | _ => none
  | .CPX => match m with
    | .IMM => some (.cpxImm b1)
    | .ZP => some (.cpxZp b1)
    | .ABS => some (.cpxAbs (joinBytes b2 b1))
    | _ => none
  | .CPY => match m with
    | .IMM => some (.cpyImm b1)
    | .ZP => some (.cpyZp b1)
    | .ABS => some (.cpyAbs (joinBytes b2 b1))
    | _ => none
  | .INC => match m with
    | .ZP => some (.incZp b1)
    | .ZPX => some (.incZpX b1)
    | .ABS => some (.incAbs (joinBytes b2 b1))
    | .ABSX => some (.incAbsX (joinBytes b2 b1))
    | _ => none
  | .DEC => match m with
    | .ZP => some (.decZp b1)
    | .ZPX => some (.decZpX b1)
    | .ABS => some (.decAbs (joinBytes b2 b1))
    | .ABSX => some (.decAbsX (joinBytes b2 b1))
    | _ => none
  | .INX => match m with
    | .IMP => some .inx
    | _ => none
  | .INY => match m with
    | .IMP => some .iny
    | _ => none
  | .DEX => match m with
    | .IMP => some .dex
    | _ => none
  | .DEY => match m with
    | .IMP => some .dey
    | _ => none
  | .AND => match m with
    | .IMM => some (.andImm b1)
    | .ZP => some (.andZp b1)
    | .ZPX => some (.andZpX b1)
    | .ABS => some (.andAbs (joinBytes b2 b1))
    | .ABSX => some (.andAbsX (joinBytes b2 b1))
    | .ABSY => some (.andAbsY (joinBytes b2 b1))
    | .INDX => some (.andIndX b1)
    | .INDY => some (.andIndY b1)
    | _ => none
  | .ORA => match m with
    | .IMM => some (.oraImm b1)
    | .ZP => some (.oraZp b1)
    | .ZPX => some (.oraZpX b1)
    | .ABS => some (.oraAbs (joinBytes b2 b1))
    | .ABSX => some (.oraAbsX (joinBytes b2 b1))
    | .ABSY => some (.oraAbsY (joinBytes b2 b1))
    | .INDX => some (.oraIndX b1)
    | .INDY => some (.oraIndY b1)
    | _ => none
  | .EOR => match m with
    | .IMM => some (.eorImm b1)
    | .ZP => some (.eorZp b1)
    | .ZPX => some (.eorZpX b1)
    | .ABS => some (.eorAbs (joinBytes b2 b1))
    | .ABSX => some (.eorAbsX (joinBytes b2 b1))
    | .ABSY => some (.eorAbsY (joinBytes b2 b1))
    | .INDX => some (.eorIndX b1)
    | .INDY => some (.eorIndY b1)
    | _ => none
  | .BIT => match m with
    | .ZP => some (.bitZp b1)
    | .ABS => some (.bitAbs (joinBytes b2 b1))
    | _ => none
  | .ASL => match m with
    | .ACC => some .aslAcc
    | .ZP => some (.aslZp b1)
    | .ZPX => some (.aslZpX b1)
    | .ABS => some (.aslAbs (joinBytes b2 b1))
    | .ABSX => some (.aslAbsX (joinBytes b2 b1))
    | _ => none
  | .LSR => match m with
    | .ACC => some .lsrAcc
    | .ZP => some (.lsrZp b1)
    | .ZPX => some (.lsrZpX b1)
    | .ABS => some (.lsrAbs (joinBytes b2 b1))
    | .ABSX => some (.lsrAbsX (joinBytes b2 b1))
    | _ => none
  | .ROL => match m with
    | .ACC => some .rolAcc
    | .ZP => some (.rolZp b1)
    | .ZPX => some (.rolZpX b1)
    | .ABS => some (.rolAbs (joinBytes b2 b1))
    | .ABSX => some (.rolAbsX (joinBytes b2 b1))
    | _ => none
  | .ROR => match m with
    | .ACC => some .rorAcc
    | .ZP => some (.rorZp b1)
    | .ZPX => some (.rorZpX b1)
    | .ABS => some (.rorAbs (joinBytes b2 b1))
    | .ABSX => some (.rorAbsX (joinBytes b2 b1))
    | _ => none
  | .JMP => match m with
    | .ABS => some (.jmpAbs (joinBytes b2 b1))
    | .IND => some (.jmpInd (joinBytes b2 b1))
    | _ => none
  | .JSR => match m with
    | .ABS => some (.jsr (joinBytes b2 b1))
    | _ => none
  | .RTS => match m with
    | .IMP => some .rts
    | _ => none
  | .RTI => match m with
    | .IMP => some .rti
    | _ => none
  | .BCC => match m with
    | .REL => some (.bcc b1)
    | _ => none
  | .BCS => match m with
    | .REL => some (.bcs b1)
    | _ => none
  | .BEQ => match m with
    | .REL => some (.beq b1)
    | _ => none
  | .BNE => match m with
    | .REL => some (.bne b1)
    | _ => none
  | .BMI => match m with
    | .REL => some (.bmi b1)
    | _ => none
  | .BPL => match m with
    | .REL => some (.bpl b1)
    | _ => none
  | .BVC => match m with
    | .REL => some (.bvc b1)
    | _ => none
  | .BVS => match m with
    | .REL => some (.bvs b1)
    | _ => none
  | .CLC => match m with
    | .IMP => some .clc
    | _ => none
  | .CLD => match m with
    | .IMP => some .cld
    | _ => none
  | .CLI => match m with
    | .IMP => some .cli
    | _ => none
  | .CLV => match m with
    | .IMP => some .clv
    | _ => none
  | .SEC => match m with
    | .IMP => some .sec
    | _ => none
  | .SED => match m with
    | .IMP => some .sed
    | _ => none
  | .SEI => match m with
    | .IMP => some .sei
    | _ => none
  | .NOP => match m with
    | .IMP => some .nop
    | _ => none
  | .BRK => match m with
    | .IMP => some .brk
    | _ => none
  | .TRAP => match m with
    | .IMP => some .trap
    | _ => none

/-- What decoding a byte stream gives. -/
inductive Decoded where
  /-- an instruction and the bytes after it -/
  | instr (i : Instr) (rest : List Byte)
  /-- the stream ends inside the instruction -/
  | truncated
  /-- the opcode has no descriptor (R96) -/
  | unknownOpcode (op : Byte)
  /-- the table pairs a handler with a mode it does not support (R232); unreachable with this table -/
  | unsupportedMode (op : Byte) (m : Mode)
deriving DecidableEq, Repr

/-- The end of decoding, once the operand bytes are at hand. -/
def finishDecode (op : Byte) (h : Mnemonic) (m : Mode) (b1 b2 : Byte) (rest : List Byte) : Decoded :=
  match build h m b1 b2 with
  | some i => .instr i rest
  | none => .unsupportedMode op m

/-- Decode one instruction from a byte stream: the opcode alone fixes the length (R80, R101), and the first operand
byte of two is the low one (R84). -/
def decode (trapOp : Byte) : List Byte → Decoded
  | [] => .truncated
  | op :: tail =>
    match descriptor trapOp op with
    | none => .unknownOpcode op
    | some (h, m) =>
      match m.operandBytes, tail with
      | 0, rest => finishDecode op h m 0 0 rest
      | 1, b1 :: rest => finishDecode op h m b1 0 rest
      | 2, b1 :: b2 :: rest => finishDecode op h m b1 b2 rest
      | _, _ => .truncated

/-- How many operand bytes follow an opcode byte; none for an unknown instruction (R80, R101). -/
def operandCount (trapOp op : Byte) : Option Nat := (descriptor trapOp op).map (fun d => d.2.operandBytes)

/-- The bytes of an instruction, lowest address first, from the "Encoding" line of its rule and the format of its mode
(R81): the opcode, then a one-byte operand, or the low and the high byte of a two-byte one. -/
def encode (trapOp : Byte) : Instr → List Byte
  | .ldaImm imm => [0xA9#8, imm]
  | .ldaZp zp => [0xA5#8, zp]
  | .ldaZpX zp => [0xB5#8, zp]
  | .ldaAbs addr => [0xAD#8, lowByte addr, highByte addr]
  | .ldaAbsX addr => [0xBD#8, lowByte addr, highByte addr]
  | .ldaAbsY addr => [0xB9#8, lowByte addr, highByte addr]
  | .ldaIndX zp => [0xA1#8, zp]
  | .ldaIndY zp => [0xB1#8, zp]
  | .ldxImm imm => [0xA2#8, imm]
  | .ldxZp zp => [0xA6#8, zp]
  | .ldxZpY zp => [0xB6#8, zp]
  | .ldxAbs addr => [0xAE#8, lowByte addr, highByte addr]
  | .ldxAbsY addr => [0xBE#8, lowByte addr, highByte addr]
  | .ldyImm imm => [0xA0#8, imm]
  | .ldyZp zp => [0xA4#8, zp]
  | .ldyZpX zp => [0xB4#8, zp]
  | .ldyAbs addr => [0xAC#8, lowByte addr, highByte addr]
  | .ldyAbsX addr => [0xBC#8, lowByte addr, highByte addr]
  | .staZp zp => [0x85#8, zp]
  | .staZpX zp => [0x95#8, zp]
  | .staAbs addr => [0x8D#8, lowByte addr, highByte addr]
  | .staAbsX addr => [0x9D#8, lowByte addr, highByte addr]
  | .staAbsY addr => [0x99#8, lowByte addr, highByte addr]
  | .staIndX zp => [0x81#8, zp]
  | .staIndY zp => [0x91#8, zp]
  | .stxZp zp => [0x86#8, zp]
  | .stxZpY zp => [0x96#8, zp]
  | .stxAbs addr => [0x8E#8, lowByte addr, highByte addr]
  | .styZp zp => [0x84#8, zp]
  | .styZpX zp => [0x94#8, zp]
  | .styAbs addr => [0x8C#8, lowByte addr, highByte addr]
  | .tax => [0xAA#8]
  | .tay => [0xA8#8]
  | .txa => [0x8A#8]
  | .tya => [0x98#8]
  | .tsx => [0xBA#8]
  | .txs => [0x9A#8]
  | .pha => [0x48#8]
  | .php => [0x08#8]
  | .pla => [0x68#8]
  | .plp => [0x28#8]
  | .adcImm imm => [0x69#8, imm]
  | .adcZp zp => [0x65#8, zp]
  | .adcZpX zp => [0x75#8, zp]
  | .adcAbs addr => [0x6D#8, lowByte addr, highByte addr]
  | .adcAbsX addr => [0x7D#8, lowByte addr, highByte addr]
  | .adcAbsY addr => [0x79#8, lowByte addr, highByte addr]
  | .adcIndX zp => [0x61#8, zp]
  | .adcIndY zp => [0x71#8, zp]
  | .sbcImm imm => [0xE9#8, imm]
  | .sbcZp zp => [0xE5#8, zp]
  | .sbcZpX zp => [0xF5#8, zp]
  | .sbcAbs addr => [0xED#8, lowByte addr, highByte addr]
  | .sbcAbsX addr => [0xFD#8, lowByte addr, highByte addr]
  | .sbcAbsY addr => [0xF9#8, lowByte addr, highByte addr]
  | .sbcIndX zp => [0xE1#8, zp]
  | .sbcIndY zp => [0xF1#8, zp]
  | .cmpImm imm => [0xC9#8, imm]
  | .cmpZp zp => [0xC5#8, zp]
  | .cmpZpX zp => [0xD5#8, zp]
  | .cmpAbs addr => [0xCD#8, lowByte addr, highByte addr]
  | .cmpAbsX addr => [0xDD#8, lowByte addr, highByte addr]
  | .cmpAbsY addr => [0xD9#8, lowByte addr, highByte addr]
  | .cmpIndX zp => [0xC1#8, zp]
  | .cmpIndY zp => [0xD1#8, zp]
  | .cpxImm imm => [0xE0#8, imm]
  | .cpxZp zp => [0xE4#8, zp]
  | .cpxAbs addr => [0xEC#8, lowByte addr, highByte addr]
  | .cpyImm imm => [0xC0#8, imm]
  | .cpyZp zp => [0xC4#8, zp]
  | .cpyAbs addr => [0xCC#8, lowByte addr, highByte addr]
  | .incZp zp => [0xE6#8, zp]
  | .incZpX zp => [0xF6#8, zp]
  | .incAbs addr => [0xEE#8, lowByte addr, highByte addr]
  | .incAbsX addr => [0xFE#8, lowByte addr, highByte addr]
  | .decZp zp => [0xC6#8, zp]
  | .decZpX zp => [0xD6#8, zp]
  | .decAbs addr => [0xCE#8, lowByte addr, highByte addr]
  | .decAbsX addr => [0xDE#8, lowByte addr, highByte addr]
  | .inx => [0xE8#8]
  | .iny => [0xC8#8]
  | .dex => [0xCA#8]
  | .dey => [0x88#8]
  | .andImm imm => [0x29#8, imm]
  | .andZp zp => [0x25#8, zp]
  | .andZpX zp => [0x35#8, zp]
  | .andAbs addr => [0x2D#8, lowByte addr, highByte addr]
  | .andAbsX addr => [0x3D#8, lowByte addr, highByte addr]
  | .andAbsY addr => [0x39#8, lowByte addr, highByte addr]
  | .andIndX zp => [0x21#8, zp]
  | .andIndY zp => [0x31#8, zp]
  | .oraImm imm => [0x09#8, imm]
  | .oraZp zp => [0x05#8, zp]
  | .oraZpX zp => [0x15#8, zp]
  | .oraAbs addr => [0x0D#8, lowByte addr, highByte addr]
  | .oraAbsX addr => [0x1D#8, lowByte addr, highByte addr]
  | .oraAbsY addr => [0x19#8, lowByte addr, highByte addr]
  | .oraIndX zp => [0x01#8, zp]
  | .oraIndY zp => [0x11#8, zp]
  | .eorImm imm => [0x49#8, imm]
  | .eorZp zp => [0x45#8, zp]
  | .eorZpX zp => [0x55#8, zp]
  | .eorAbs addr => [0x4D#8, lowByte addr, highByte addr]
  | .eorAbsX addr => [0x5D#8, lowByte addr, highByte addr]
  | .eorAbsY addr => [0x59#8, lowByte addr, highByte addr]
  | .eorIndX zp => [0x41#8, zp]
  | .eorIndY zp => [0x51#8, zp]
  | .bitZp zp => [0x24#8, zp]
  | .bitAbs addr => [0x2C#8, lowByte addr, highByte addr]
  | .aslAcc => [0x0A#8]
  | .aslZp zp => [0x06#8, zp]
  | .aslZpX zp => [0x16#8, zp]
  | .aslAbs addr => [0x0E#8, lowByte addr, highByte addr]
  | .aslAbsX addr => [0x1E#8, lowByte addr, highByte addr]
  | .lsrAcc => [0x4A#8]
  | .lsrZp zp => [0x46#8, zp]
  | .lsrZpX zp => [0x56#8, zp]
  | .lsrAbs addr => [0x4E#8, lowByte addr, highByte addr]
  | .lsrAbsX addr => [0x5E#8, lowByte addr, highByte addr]
  | .rolAcc => [0x2A#8]
  | .rolZp zp => [0x26#8, zp]
  | .rolZpX zp => [0x36#8, zp]
  | .rolAbs addr => [0x2E#8, lowByte addr, highByte addr]
  | .rolAbsX addr => [0x3E#8, lowByte addr, highByte addr]
  | .rorAcc => [0x6A#8]
  | .rorZp zp => [0x66#8, zp]
  | .rorZpX zp => [0x76#8, zp]
  | .rorAbs addr => [0x6E#8, lowByte addr, highByte addr]
  | .rorAbsX addr => [0x7E#8, lowByte addr, highByte addr]
  | .jmpAbs addr => [0x4C#8, lowByte addr, highByte addr]
  | .jmpInd ptr => [0x6C#8, lowByte ptr, highByte ptr]
  | .jsr addr => [0x20#8, lowByte addr, highByte addr]
  | .rts => [0x60#8]
  | .rti => [0x40#8]
  | .bcc rel => [0x90#8, rel]
  | .bcs rel => [0xB0#8, rel]
  | .beq rel => [0xF0#8, rel]
  | .bne rel => [0xD0#8, rel]
  | .bmi rel => [0x30#8, rel]
  | .bpl rel => [0x10#8, rel]
  | .bvc rel => [0x50#8, rel]
  | .bvs rel => [0x70#8, rel]
  | .clc => [0x18#8]
  | .cld => [0xD8#8]
  | .cli => [0x58#8]
  | .clv => [0xB8#8]
  | .sec => [0x38#8]
  | .sed => [0xF8#8]
  | .sei => [0x78#8]
  | .nop => [0xEA#8]
  | .brk => [0x00#8]
  | .trap => [trapOp]

/-- The bytes of an instruction whose table bits are `w`, `nbits` of them (whole bytes), bit 0 being the least
significant bit of the first byte, and zeros above: three bytes, the longest instruction (R80). -/
def tableWordBytes (nbits w : Nat) : List Byte :=
  let v := w % 2 ^ nbits
  [BitVec.ofNat 8 v, BitVec.ofNat 8 (v / 256), BitVec.ofNat 8 (v / 65536)]

/-- The instruction the decoder reads from a table word, `TRAP_OPCODE` being that of `State.reset` (log 5). -/
def decodeTableWord (nbits w : Nat) : Option Instr :=
  match decode Config.resetTrapOpcode (tableWordBytes nbits w) with
  | .instr i _ => some i
  | _ => none

end Sys2Proof
end

