-- ==== Sys2Proof/Machine/State.lean ====
section
/-! DEFINITION. The state of the machine: the register file and flags (R20-R27), the bus with its devices (R42-R49), the
launch parameters (R4) and what the host has queued and been told (R220); the reasons a step can stop (R230); and the
state after reset (R34). Plain data throughout. -/

namespace Sys2Proof.Machine

/-- The seven processor flags (R20, R25). -/
structure Flags where
  /-- Carry -/
  c : Bool
  /-- Zero -/
  z : Bool
  /-- InterruptDisable -/
  i : Bool
  /-- Decimal: stored and packed, read by no arithmetic (R32) -/
  d : Bool
  /-- Break -/
  b : Bool
  /-- Overflow -/
  v : Bool
  /-- Negative -/
  n : Bool
deriving DecidableEq, Repr

/-- The bytes a RAM or a ROM holds, as (bus address, byte) pairs: addresses strictly rising, no entry equal to
`Config.unwrittenByte`, which is what an unlisted address holds (log 2, log 13). -/
abbrev Memory := List Host.Cell

/-- A peripheral: an opaque agent (R47). Its hidden state is the history of the accesses it received, kept in
`Bus.calls`, and what the host has queued for it. -/
structure Peripheral where
  /-- the answers to its next reads; when there is none, a free value (log 9) -/
  reads : List Byte
  /-- the answers to the next polls of its interrupt request; when there is none, a free value (log 10) -/
  irqs : List Bool
  /-- how often its request has been polled -/
  polled : Nat
deriving DecidableEq, Repr

/-- The kinds of device (R47-R49). -/
inductive DeviceKind where
  | ram (mem : Memory)
  | rom (mem : Memory) (onWrite : RomWritePolicy)
  | peripheral (p : Peripheral)
deriving DecidableEq, Repr

/-- The kind of a device without its contents. -/
inductive UnitKind where
  | ram
  | rom (onWrite : RomWritePolicy)
  | peripheral
deriving DecidableEq, Repr

/-- A unit on the bus: its range and what stands behind it (R42). -/
structure Device where
  base : Addr
  size : Nat
  kind : DeviceKind
deriving DecidableEq, Repr

/-- The bus: the devices, highest priority first (R43), and the accesses peripherals have received, newest first
(R47, R71). -/
structure Bus where
  devices : List Device
  calls : List BusCall
deriving DecidableEq, Repr

/-- The state of the machine. -/
@[ext]
structure State where
  /-- accumulator (R21) -/
  a : Byte
  /-- index register (R22) -/
  x : Byte
  /-- index register (R22) -/
  y : Byte
  /-- stack pointer: an offset in the stack page (R23) -/
  sp : Byte
  /-- program counter (R24) -/
  pc : Addr
  /-- processor flags (R25) -/
  flags : Flags
  /-- "currently servicing an interrupt" (R26) -/
  inIRQ : Bool
  /-- instruction counter, unbounded (R27) -/
  icount : Nat
  /-- the address space (R40-R49) -/
  bus : Bus
  /-- the launch parameters (R4); no step changes them -/
  params : Params
  /-- what the host callback does at the next TRAPs; when there is none, a free value (R220, log 11) -/
  trapQueue : List TrapCallback
  /-- the selectors passed to the host callback so far, newest first (R219) -/
  trapCalls : List Byte
deriving DecidableEq, Repr

/-- The fatal errors (R230). Each carries "the state ... as it was when the error was detected" (`left`), which is
what the host dumps (R233); no step follows it. -/
inductive Fault where
  /-- F1: raised by `cpuStep` after the opcode fetch when the opcode has no descriptor (R96, R231). Safe: the spec's own. -/
  | unknownOpcode (op : Byte) (left : State)
  /-- F2: raised by `cpuStep` if the table paired a handler with a mode it does not support (R232); unreachable with
  this table (R103, D30). Safe: the spec's own. -/
  | unsupportedMode (op : Byte) (m : Mode) (left : State)
  /-- F3: raised by `execBrk` (R218, R234). Safe: the spec's own. -/
  | unimplemented (op : Byte) (left : State)
  /-- Raised by `execTrap` when the host callback never returns: the spec's "stuck" (U11, R252). Safe: the machine
  stops where the hardware makes no further step either. -/
  | trapNeverReturns (selector : Byte) (left : State)
deriving DecidableEq, Repr

/-- Why the model gives an instruction no meaning. -/
inductive Refusal where
  /-- Raised only by an arm of `exec` for an instruction with no meaning yet; no arm does. Safe: the machine stops. -/
  | notModelled (mnemonic : String)
deriving DecidableEq, Repr

/-- The state right after reset (R34, R260): B, inIRQ and icount are 0 and PC is the word at the reset vector; A, X, Y,
SP and the other flags are draws, here 0 (DESIGN CHOICE, unsafe, log 3 and log 4). Reset leaves memory and devices
alone (D31); the devices, an OPEN parameter, are here one RAM over the whole space with nothing written (DESIGN CHOICE,
unsafe, log 1 and log 2), so the reset vector reads 0x0000. -/
def State.reset : State where
  a := 0x00#8
  x := 0x00#8
  y := 0x00#8
  sp := 0x00#8
  pc := 0x0000#16
  flags := ⟨false, false, false, false, false, false, false⟩
  inIRQ := false
  icount := 0
  bus := ⟨[⟨0x0000#16, 65536, .ram []⟩], []⟩
  params := ⟨Config.resetTrapOpcode, .zero, []⟩
  trapQueue := []
  trapCalls := []

end Sys2Proof.Machine
end

