-- ==== Sys2Proof/Machine/Flags.lean ====
section
/-! DEFINITION. The flag operations (R29-R32) and every computation of flags from data: addition and subtraction
(R150-R152), comparison (R153), bit test (R173), shifts and rotates (R174-R178). -/

namespace Sys2Proof.Machine

/-- `Update(v)` (R29): Z and N from a value. -/
def Flags.update (v : Byte) (f : Flags) : Flags := { f with z := v == 0x00#8, n := v.getLsbD 7 }

/-- `SetCarry(x)` (R32). -/
def Flags.setCarry (x : Bool) (f : Flags) : Flags := { f with c := x }

/-- `SetZero(x)` (R32). -/
def Flags.setZero (x : Bool) (f : Flags) : Flags := { f with z := x }

/-- `SetOverflow(x)` (R32). -/
def Flags.setOverflow (x : Bool) (f : Flags) : Flags := { f with v := x }

/-- `SetNegative(x)` (R32). -/
def Flags.setNegative (x : Bool) (f : Flags) : Flags := { f with n := x }

/-- Bit `k` of a byte, set to a flag's value. -/
def flagBit (k : Nat) (x : Bool) : Byte := if x then (1#8) <<< k else 0x00#8

/-- `GetByte()`: the packed status byte (R30, R33): B in bit 4, bit 5 always 1. -/
def Flags.getByte (f : Flags) : Byte :=
  flagBit 0 f.c ||| flagBit 1 f.z ||| flagBit 2 f.i ||| flagBit 3 f.d ||| flagBit 4 f.b ||| flagBit 5 true |||
    flagBit 6 f.v ||| flagBit 7 f.n

/-- `SetByte(b)`: the flags from a pulled status byte (R31); B is unchanged, bits 4 and 5 are ignored. -/
def Flags.setByte (p : Byte) (f : Flags) : Flags :=
  { f with
    c := p.getLsbD 0
    z := p.getLsbD 1
    i := p.getLsbD 2
    d := p.getLsbD 3
    v := p.getLsbD 6
    n := p.getLsbD 7 }

/-- A flag as a number (R5). -/
def bit (x : Bool) : Nat := if x then 1 else 0

/-- The sign bit of a byte. -/
def sign (v : Byte) : Bool := v.getLsbD 7

/-- The sum of `ADC` in unbounded integers (R151). -/
def adcSum (a m : Byte) (c : Bool) : Nat := a.toNat + m.toNat + bit c

/-- The result byte of `ADC` (R151). -/
def adcResult (a m : Byte) (c : Bool) : Byte := BitVec.ofNat 8 (adcSum a m c)

/-- The flags after `ADC` (R151): binary whatever D is (D14). -/
def adcFlags (a m : Byte) (f : Flags) : Flags :=
  let r := adcResult a m f.c
  Flags.update r { f with
    c := decide (adcSum a m f.c > 255)
    v := sign a == sign m && sign r != sign a }

/-- The sum of `SBC` in unbounded integers: `A + ~m + C` (R152). -/
def sbcSum (a m : Byte) (c : Bool) : Nat := a.toNat + (255 - m.toNat) + bit c

/-- The result byte of `SBC` (R152). -/
def sbcResult (a m : Byte) (c : Bool) : Byte := BitVec.ofNat 8 (sbcSum a m c)

/-- The flags after `SBC` (R152), with both conditions of the overflow (C1). -/
def sbcFlags (a m : Byte) (f : Flags) : Flags :=
  let r := sbcResult a m f.c
  Flags.update r { f with
    c := decide (sbcSum a m f.c > 255)
    v := sign a != sign m && sign r != sign a }

/-- `Compare(reg, m)` (R153): C, Z and N by the explicit setters; V is not written. -/
def compareFlags (reg m : Byte) (f : Flags) : Flags :=
  ((f.setCarry (decide (m.toNat ≤ reg.toNat))).setZero (reg == m)).setNegative (sign (reg - m))

/-- The flags after `BIT` (R173). -/
def bitFlags (a m : Byte) (f : Flags) : Flags :=
  ((f.setZero ((a &&& m) == 0x00#8)).setOverflow (m.getLsbD 6)).setNegative (m.getLsbD 7)

/-- A shift: from the byte and the incoming carry, the result and the carry out (R174). -/
abbrev ShiftOp := Byte → Bool → Byte × Bool

/-- `ASL` (R175). -/
def aslOp : ShiftOp := fun v _ => (v <<< 1, v.getLsbD 7)

/-- `LSR` (R176). -/
def lsrOp : ShiftOp := fun v _ => (v >>> 1, v.getLsbD 0)

/-- `ROL` (R177). -/
def rolOp : ShiftOp := fun v c => ((v <<< 1) ||| flagBit 0 c, v.getLsbD 7)

/-- `ROR` (R178). -/
def rorOp : ShiftOp := fun v c => ((v >>> 1) ||| flagBit 7 c, v.getLsbD 0)

/-- The flags after a shift (R174): the carry out, then `Update` of the result. -/
def shiftFlags (r : Byte × Bool) (f : Flags) : Flags := Flags.update r.1 (f.setCarry r.2)

end Sys2Proof.Machine
end

