-- ==== Sys2Proof/Machine/Ops.lean ====
section
/-! DEFINITION. The named operations over memory, the bus, the registers, the stack and the instruction stream, taking
the interrupt and returning from it, and reset. A pair `(v, s')` is a value read and the state after the read: a read
of a peripheral may change it (R47, R71). -/

namespace Sys2Proof.Machine

/-! ## Bytes held by a RAM or a ROM (R48, R49) -/

/-- The byte held for bus address `a`. -/
def Memory.read (a : Nat) : Memory → Byte
  | [] => Config.unwrittenByte
  | (k, w) :: rest => if k = a then w else Memory.read a rest

/-- Hold `v` for bus address `a`, keeping the canonical form. -/
def Memory.write (a : Nat) (v : Byte) : Memory → Memory
  | [] => if v = Config.unwrittenByte then [] else [(a, v)]
  | (k, w) :: rest =>
    if a < k then
      if v = Config.unwrittenByte then (k, w) :: rest else (a, v) :: (k, w) :: rest
    else if a = k then
      if v = Config.unwrittenByte then rest else (a, v) :: rest
    else (k, w) :: Memory.write a v rest

/-- The canonical form of a memory whose addresses all lie at or above `lo` and below `hi`. -/
def Memory.wfIn (lo hi : Nat) : Memory → Bool
  | [] => true
  | (k, w) :: rest => lo ≤ k && k < hi && w != Config.unwrittenByte && Memory.wfIn (k + 1) hi rest

/-- The canonical form (log 13): addresses strictly rising within the address space (R40), no entry equal to what an
unlisted address holds. -/
def Memory.wf (m : Memory) : Bool := m.wfIn 0 65536

/-! ## Devices (R42, R46-R49) -/

/-- `Contains(d, addr)` (R46): on unbounded integers, so a device of size 0 contains nothing and no range wraps. -/
def Device.contains (d : Device) (a : Addr) : Bool := d.base.toNat ≤ a.toNat && a.toNat < d.base.toNat + d.size

/-- The byte a device holds for an address; none for a peripheral, which holds no bytes. -/
def Device.held (d : Device) (a : Addr) : Option Byte :=
  match d.kind with
  | .ram m => some (m.read a.toNat)
  | .rom m _ => some (m.read a.toNat)
  | .peripheral _ => none

/-- What a peripheral answers to a read (R47, log 9). -/
def Peripheral.answer (device : Nat) (a : Addr) (calls : List BusCall) (p : Peripheral) : Byte :=
  match p.reads with
  | v :: _ => v
  | [] => Config.peripheralByte device a calls

/-- Whether a peripheral requests an interrupt at this poll (R47, R236, log 10). -/
def Peripheral.request (device : Nat) (calls : List BusCall) (p : Peripheral) : Bool :=
  match p.irqs with
  | r :: _ => r
  | [] => Config.peripheralIrq device p.polled calls

/-- `Read(address)` of device number `n` (R42, R47-R49): the byte, the device after it, the history after it. -/
def Device.read (n : Nat) (a : Addr) (calls : List BusCall) (d : Device) : Byte × Device × List BusCall :=
  match d.kind with
  | .ram m => (m.read a.toNat, d, calls)
  | .rom m _ => (m.read a.toNat, d, calls)
  | .peripheral p =>
    let v := p.answer n a calls
    (v, { d with kind := .peripheral { p with reads := p.reads.tail } }, ⟨n, .read a v⟩ :: calls)

/-- `Write(address, byte)` of device number `n` (R42, R47-R49): the device and the history after it. -/
def Device.write (n : Nat) (a : Addr) (v : Byte) (calls : List BusCall) (d : Device) : Device × List BusCall :=
  match d.kind with
  | .ram m => ({ d with kind := .ram (m.write a.toNat v) }, calls)
  | .rom _ .ignore => (d, calls)
  | .rom m .store => ({ d with kind := .rom (m.write a.toNat v) .store }, calls)
  | .peripheral _ => (d, ⟨n, .write a v⟩ :: calls)

/-- `CheckInterrupt()` of device number `n` (R47-R49, R72): false for RAM and ROM. It is no access: the history does
not grow (D20). -/
def Device.poll (n : Nat) (calls : List BusCall) (d : Device) : Bool × Device :=
  match d.kind with
  | .ram _ => (false, d)
  | .rom _ _ => (false, d)
  | .peripheral p =>
    (p.request n calls, { d with kind := .peripheral { p with irqs := p.irqs.tail, polled := p.polled + 1 } })

/-- A device's bytes are in canonical form and lie in its range. -/
def Device.wf (d : Device) : Bool :=
  match d.kind with
  | .ram m => m.wf && m.wfIn d.base.toNat (d.base.toNat + d.size)
  | .rom m _ => m.wf && m.wfIn d.base.toNat (d.base.toNat + d.size)
  | .peripheral _ => true

/-- What no access changes in a device: its range and its kind (R42, R43). -/
def Device.unit (d : Device) : Addr × Nat × UnitKind :=
  (d.base, d.size,
    match d.kind with
    | .ram _ => .ram
    | .rom _ p => .rom p
    | .peripheral _ => .peripheral)

/-! ## The bus dispatcher (R43-R46, R72). A device's number is the number of devices mapped before it. -/

/-- A read over devices in priority order: the first that contains the address answers; none: 0 (R44). -/
def readDevices (a : Addr) (calls : List BusCall) : List Device → Byte × List Device × List BusCall
  | [] => (Config.openBusByte, [], calls)
  | d :: ds =>
    if d.contains a then
      let r := d.read ds.length a calls
      (r.1, r.2.1 :: ds, r.2.2)
    else
      let r := readDevices a calls ds
      (r.1, d :: r.2.1, r.2.2)

/-- A write over devices in priority order: every one that contains the address receives it (R45). -/
def writeDevices (a : Addr) (v : Byte) (calls : List BusCall) : List Device → List Device × List BusCall
  | [] => ([], calls)
  | d :: ds =>
    let r := if d.contains a then d.write ds.length a v calls else (d, calls)
    let rest := writeDevices a v r.2 ds
    (r.1 :: rest.1, rest.2)

/-- The OR of every device's request, asked in priority order (R72). -/
def pollDevices (calls : List BusCall) : List Device → Bool × List Device
  | [] => (false, [])
  | d :: ds =>
    let r := d.poll ds.length calls
    let rest := pollDevices calls ds
    (r.1 || rest.1, r.2 :: rest.2)

/-- `MemRead(addr, 1)` (R44). -/
def Bus.read (a : Addr) (b : Bus) : Byte × Bus :=
  let r := readDevices a b.calls b.devices
  (r.1, ⟨r.2.1, r.2.2⟩)

/-- `MemWrite(addr, 1, v)` (R45). -/
def Bus.write (a : Addr) (v : Byte) (b : Bus) : Bus :=
  let r := writeDevices a v b.calls b.devices
  ⟨r.1, r.2⟩

/-- `CheckInterrupts()` (R72). -/
def Bus.poll (b : Bus) : Bool × Bus :=
  let r := pollDevices b.calls b.devices
  (r.1, { b with devices := r.2 })

/-- `Map(device)`: at the front, so above every device mapped before (R43). -/
def Bus.map (d : Device) (b : Bus) : Bus := { b with devices := d :: b.devices }

/-- The device that answers a read of an address (R44). -/
def Bus.answering (a : Addr) (b : Bus) : Option Device := b.devices.find? (fun d => d.contains a)

/-- The byte memory holds at an address as a read sees it: the answering RAM's or ROM's byte, 0 where no device
answers (R44, R62); none where a peripheral answers. -/
def Bus.peek (a : Addr) (b : Bus) : Option Byte :=
  match b.answering a with
  | some d => d.held a
  | none => some Config.openBusByte

/-- The byte the `k`-th device in priority order holds for an address, answering or shadowed. -/
def Bus.heldBy (k : Nat) (a : Addr) (b : Bus) : Option Byte := b.devices[k]?.bind (fun d => d.held a)

/-- Every device of the bus is in canonical form. -/
def Bus.wf (b : Bus) : Bool := b.devices.all Device.wf

/-- The units on the bus, in priority order: fixed during a run (R43, D21). -/
def Bus.units (b : Bus) : List (Addr × Nat × UnitKind) := b.devices.map Device.unit

/-- Replace the byte that reads of an address see: in the answering RAM or ROM, or, where no such device answers, in a
one-byte RAM mapped above it. No operation of the hardware: it stands for a program being loaded (log 14). -/
def placeDevices (a : Addr) (v : Byte) : List Device → Option (List Device)
  | [] => none
  | d :: ds =>
    if d.contains a then
      match d.kind with
      | .ram m => some ({ d with kind := .ram (m.write a.toNat v) } :: ds)
      | .rom m p => some ({ d with kind := .rom (m.write a.toNat v) p } :: ds)
      | .peripheral _ => none
    else (placeDevices a v ds).map (d :: ·)

/-- `placeDevices` on a bus. -/
def Bus.place (a : Addr) (v : Byte) (b : Bus) : Bus :=
  match placeDevices a v b.devices with
  | some ds => { b with devices := ds }
  | none => b.map ⟨a, 1, .ram (Memory.write a.toNat v [])⟩

/-! ## The machine's accesses (R7) -/

/-- `MemRead(addr, 1)` (R44). -/
def State.readByte (a : Addr) (s : State) : Byte × State :=
  let r := s.bus.read a
  (r.1, { s with bus := r.2 })

/-- `MemWrite(addr, 1, v)` (R45). -/
def State.writeByte (a : Addr) (v : Byte) (s : State) : State := { s with bus := s.bus.write a v }

/-- `MemRead(addr, 2)`: the low byte, then the high byte at the next address modulo 65536 (R50). -/
def State.readWord (a : Addr) (s : State) : Addr × State :=
  let lo := s.readByte a
  let hi := lo.2.readByte (a + 1)
  (joinBytes hi.1 lo.1, hi.2)

/-- `MemWrite(addr, 2, w)`: the low byte, then the high byte at the next address modulo 65536 (R51). -/
def State.writeWord (a : Addr) (w : Addr) (s : State) : State :=
  (s.writeByte a (lowByte w)).writeByte (a + 1) (highByte w)

/-! ## The instruction stream (R84) -/

/-- `Fetch8()`. -/
def State.fetch8 (s : State) : Byte × State :=
  let r := s.readByte s.pc
  (r.1, { r.2 with pc := s.pc + 1 })

/-- The next `n` bytes of the instruction stream, in order. -/
def State.fetchBytes : Nat → State → List Byte × State
  | 0, s => ([], s)
  | n + 1, s =>
    let b := s.fetch8
    let rest := State.fetchBytes n b.2
    (b.1 :: rest.1, rest.2)

/-- The instruction at PC and the state with PC past it: the opcode, then as many operand bytes as its descriptor
says (R84, R97); for an unknown instruction the opcode alone is fetched (R96). -/
def State.fetchInstr (s : State) : Decoded × State :=
  let op := s.fetch8
  let operands := op.2.fetchBytes ((operandCount s.params.trapOpcode op.1).getD 0)
  (decode s.params.trapOpcode (op.1 :: operands.1), operands.2)

/-! ## The stack (R55-R60) -/

/-- `STACK_BASE + SP` (R55). -/
def stackAddr (sp : Byte) : Addr := Config.stackBase + sp.setWidth 16

/-- `Push8(v)` (R56). -/
def State.push8 (v : Byte) (s : State) : State :=
  let t := s.writeByte (stackAddr s.sp) v
  { t with sp := t.sp - 1 }

/-- `Pop8()` (R57). -/
def State.pop8 (s : State) : Byte × State :=
  let t := { s with sp := s.sp + 1 }
  t.readByte (stackAddr t.sp)

/-- `Push16(w)`: high byte first (R58, C6). -/
def State.push16 (w : Addr) (s : State) : State := (s.push8 (highByte w)).push8 (lowByte w)

/-- `Pop16()`: low byte first (R59). -/
def State.pop16 (s : State) : Addr × State :=
  let lo := s.pop8
  let hi := lo.2.pop8
  (joinBytes hi.1 lo.1, hi.2)

/-! ## Register results -/

/-- `Update(v)` on the state (R29). -/
def State.update (v : Byte) (s : State) : State := { s with flags := s.flags.update v }

/-- `A <- v; Update(A)`. -/
def State.setA (v : Byte) (s : State) : State := State.update v { s with a := v }

/-- `X <- v; Update(X)`. -/
def State.setX (v : Byte) (s : State) : State := State.update v { s with x := v }

/-- `Y <- v; Update(Y)`. -/
def State.setY (v : Byte) (s : State) : State := State.update v { s with y := v }

/-! ## Taking the interrupt and returning from it -/

/-- `RTI_PC_BIAS` as a number (R195). -/
def rtiPcBiasValue : RtiPcBias → Addr
  | .zero => 0#16
  | .one => 1#16

/-- Interrupt entry (R238, R239): PC and the status byte are pushed, the guard is set and PC is loaded from the vector.
I, B and icount stay (D22, D23). -/
def State.takeInterrupt (s : State) : State :=
  let t := (s.push16 (s.pc - rtiPcBiasValue s.params.rtiPcBias)).push8 s.flags.getByte
  let r := { t with inIRQ := true }.readWord Config.irqVector
  { r.2 with pc := r.1 }

/-- `Interrupt()` (R237, R238): nothing if I or inIRQ masks it. -/
def State.interrupt (s : State) : State := if s.flags.i || s.inIRQ then s else s.takeInterrupt

/-- `RTI` (R196): the status byte (B forced to 0), then PC, then the guard is cleared. -/
def State.returnFromInterrupt (s : State) : State :=
  let p := s.pop8
  let t := { p.2 with flags := { p.2.flags.setByte p.1 with b := false } }
  let w := t.pop16
  { w.2 with pc := w.1 + rtiPcBiasValue s.params.rtiPcBias, inIRQ := false }

/-- The instruction boundary after a Step that returned Ok: poll, and take the interrupt if it is requested (R244). -/
def State.boundary (s : State) : State :=
  let r := s.bus.poll
  let t := { s with bus := r.2 }
  if r.1 then t.interrupt else t

/-! ## The TRAP callback (R219, R220) -/

/-- One bus access of the callback; what a read answers goes to the host. -/
def State.runAction (s : State) : BusAction → State
  | .read a => (s.readByte a).2
  | .write a v => s.writeByte a v

/-- What the callback does at this TRAP: the queued response, or a free one that returns (R220, log 11). -/
def State.trapResponse (s : State) : TrapCallback :=
  match s.trapQueue with
  | r :: _ => r
  | [] => .returns (Config.trapReturn (s.a :: s.trapCalls))

/-- The state after a callback that returned `r`: PC, SP, B, inIRQ and icount are as before (R220). -/
def State.afterTrap (r : TrapReturn) (s : State) : State :=
  let t := r.actions.foldl State.runAction s
  { t with
    a := r.a
    x := r.x
    y := r.y
    flags := { t.flags with c := r.c, z := r.z, i := r.i, d := r.d, v := r.v, n := r.n }
    trapQueue := s.trapQueue.tail
    trapCalls := s.a :: s.trapCalls }

/-! ## Reset (R260, R261) -/

/-- The values drawn at a reset (R34, D11). -/
structure ResetDraws where
  a : Byte
  x : Byte
  y : Byte
  sp : Byte
  c : Bool
  z : Bool
  i : Bool
  d : Bool
  v : Bool
  n : Bool
deriving DecidableEq, Repr

/-- `Reset()` on any state at an instruction boundary (R260, R261): memory, devices and parameters stay (D31). -/
def State.resetWith (r : ResetDraws) (s : State) : State :=
  let t := { s with
    a := r.a
    x := r.x
    y := r.y
    sp := r.sp
    flags := ⟨r.c, r.z, r.i, r.d, false, r.v, r.n⟩
    inIRQ := false
    icount := 0 }
  let w := t.readWord Config.resetVector
  { w.2 with pc := w.1 }

end Sys2Proof.Machine
end

