-- ==== Sys2Proof/Machine/Operands.lean ====
section
/-! DEFINITION. Every operand form (R85-R95), over operand bytes already fetched (R84): the effective address of each
memory form, with the pointer reads it makes, the operand byte, the jump targets and the branch target; and the four
shapes in which instructions use them: read, store, read-modify-write, branch. -/

namespace Sys2Proof.Machine

/-- The outcome of a meaning. -/
abbrev Result := Host.Outcome State Fault Refusal

/-- `zext_16(v)` (R5). -/
def zext (v : Byte) : Addr := v.setWidth 16

/-- `sext_8(v)` as a `u16` modulo 65536 (R5, R95). -/
def sext (v : Byte) : Addr := v.signExtend 16

/-- `EA(mode)` (R88-R91, R93, R94): the address, and the state after the pointer reads, if any. -/
def effectiveAddr (m : MemForm) (s : State) : Addr × State :=
  match m with
  | .zp z => (zext z, s)
  | .zpX z => (zext (z + s.x), s)
  | .zpY z => (zext (z + s.y), s)
  | .abs w => (w, s)
  | .absX w => (w + zext s.x, s)
  | .absY w => (w + zext s.y, s)
  | .indX z => s.readWord (zext (z + s.x))
  | .indY z =>
    let p := s.readWord (zext z)
    (p.1 + zext s.y, p.2)

/-- `Operand(mode)` (R85, R87): the operand byte, and the state after reading it. -/
def operand (f : ReadForm) (s : State) : Byte × State :=
  match f with
  | .imm v => (v, s)
  | .mem m =>
    let ea := effectiveAddr m s
    ea.2.readByte ea.1

/-- `EA(IND)` (R92): the word at the pointer. -/
def indirectTarget (ptr : Addr) (s : State) : Addr × State := s.readWord ptr

/-- `Target(REL)` (R95), from the PC after the offset byte. -/
def branchTarget (rel : Byte) (pc : Addr) : Addr := pc + sext rel

/-- An instruction that reads its operand and then changes registers and flags by `f`. -/
def withOperand (f : ReadForm) (use : Byte → State → State) (s : State) : Result :=
  let m := operand f s
  .next (use m.1 m.2)

/-- A store: `MemWrite(EA(mode), 1, v)` with no read of the target (R65, R123). -/
def storeTo (m : MemForm) (v : Byte) (s : State) : Result :=
  let ea := effectiveAddr m s
  .next (ea.2.writeByte ea.1 v)

/-- A read-modify-write: one read of the target, one write of the result (R65), then the flags. -/
def modifyMem (m : MemForm) (f : Byte → Byte) (flags : Byte → Flags → Flags) (s : State) : Result :=
  let ea := effectiveAddr m s
  let v := ea.2.readByte ea.1
  let t := v.2.writeByte ea.1 (f v.1)
  .next { t with flags := flags v.1 t.flags }

/-- `Shift(mode, f)` (R174). -/
def shift (f : ShiftForm) (op : ShiftOp) (s : State) : Result :=
  match f with
  | .acc =>
    let r := op s.a s.flags.c
    .next { s with a := r.1, flags := shiftFlags r s.flags }
  | .mem m => modifyMem m (fun v => (op v s.flags.c).1) (fun v => shiftFlags (op v s.flags.c)) s

/-- `Branch(cond)` (R197): PC is already past the offset byte. -/
def branch (cond : Bool) (rel : Byte) (s : State) : Result :=
  .next (if cond then { s with pc := branchTarget rel s.pc } else s)

end Sys2Proof.Machine
end

