-- ==== Sys2Proof/Machine/Arithmetic.lean ====
section
/-! DEFINITION. Addition, subtraction, comparison, increment and decrement (R150-R162).
A meaning runs on the state after the fetch, with PC past the instruction (R24, R97); `cpuStep` counts it. -/

namespace Sys2Proof.Machine

/-- Add with carry into A (R151). -/
def addA (f : ReadForm) (s : State) : Result :=
  withOperand f (fun m t => { t with a := adcResult t.a m t.flags.c, flags := adcFlags t.a m t.flags }) s

/-! `ADC` (R151), one definition per encoding. -/

def execAdcImm (imm : Byte) (s : State) : Result := addA (.imm imm) s
def execAdcZp (zp : Byte) (s : State) : Result := addA (.mem (.zp zp)) s
def execAdcZpX (zp : Byte) (s : State) : Result := addA (.mem (.zpX zp)) s
def execAdcAbs (addr : Addr) (s : State) : Result := addA (.mem (.abs addr)) s
def execAdcAbsX (addr : Addr) (s : State) : Result := addA (.mem (.absX addr)) s
def execAdcAbsY (addr : Addr) (s : State) : Result := addA (.mem (.absY addr)) s
def execAdcIndX (zp : Byte) (s : State) : Result := addA (.mem (.indX zp)) s
def execAdcIndY (zp : Byte) (s : State) : Result := addA (.mem (.indY zp)) s

/-- Subtract with borrow from A (R152). -/
def subtractA (f : ReadForm) (s : State) : Result :=
  withOperand f (fun m t => { t with a := sbcResult t.a m t.flags.c, flags := sbcFlags t.a m t.flags }) s

/-! `SBC` (R152), one definition per encoding. -/

def execSbcImm (imm : Byte) (s : State) : Result := subtractA (.imm imm) s
def execSbcZp (zp : Byte) (s : State) : Result := subtractA (.mem (.zp zp)) s
def execSbcZpX (zp : Byte) (s : State) : Result := subtractA (.mem (.zpX zp)) s
def execSbcAbs (addr : Addr) (s : State) : Result := subtractA (.mem (.abs addr)) s
def execSbcAbsX (addr : Addr) (s : State) : Result := subtractA (.mem (.absX addr)) s
def execSbcAbsY (addr : Addr) (s : State) : Result := subtractA (.mem (.absY addr)) s
def execSbcIndX (zp : Byte) (s : State) : Result := subtractA (.mem (.indX zp)) s
def execSbcIndY (zp : Byte) (s : State) : Result := subtractA (.mem (.indY zp)) s

/-- `m <- Operand(mode); Compare(reg, m)` (R153). -/
def compareWith (reg : State → Byte) (f : ReadForm) (s : State) : Result :=
  withOperand f (fun m t => { t with flags := compareFlags (reg t) m t.flags }) s

/-! `CMP` (R154), one definition per encoding. -/

def execCmpImm (imm : Byte) (s : State) : Result := compareWith (fun t => t.a) (.imm imm) s
def execCmpZp (zp : Byte) (s : State) : Result := compareWith (fun t => t.a) (.mem (.zp zp)) s
def execCmpZpX (zp : Byte) (s : State) : Result := compareWith (fun t => t.a) (.mem (.zpX zp)) s
def execCmpAbs (addr : Addr) (s : State) : Result := compareWith (fun t => t.a) (.mem (.abs addr)) s
def execCmpAbsX (addr : Addr) (s : State) : Result := compareWith (fun t => t.a) (.mem (.absX addr)) s
def execCmpAbsY (addr : Addr) (s : State) : Result := compareWith (fun t => t.a) (.mem (.absY addr)) s
def execCmpIndX (zp : Byte) (s : State) : Result := compareWith (fun t => t.a) (.mem (.indX zp)) s
def execCmpIndY (zp : Byte) (s : State) : Result := compareWith (fun t => t.a) (.mem (.indY zp)) s

/-! `CPX` (R155), one definition per encoding. -/

def execCpxImm (imm : Byte) (s : State) : Result := compareWith (fun t => t.x) (.imm imm) s
def execCpxZp (zp : Byte) (s : State) : Result := compareWith (fun t => t.x) (.mem (.zp zp)) s
def execCpxAbs (addr : Addr) (s : State) : Result := compareWith (fun t => t.x) (.mem (.abs addr)) s

/-! `CPY` (R156), one definition per encoding. -/

def execCpyImm (imm : Byte) (s : State) : Result := compareWith (fun t => t.y) (.imm imm) s
def execCpyZp (zp : Byte) (s : State) : Result := compareWith (fun t => t.y) (.mem (.zp zp)) s
def execCpyAbs (addr : Addr) (s : State) : Result := compareWith (fun t => t.y) (.mem (.abs addr)) s

/-- Increment the byte at the effective address (R157). -/
def incrementAt (m : MemForm) (s : State) : Result := modifyMem m (fun v => v + 1) (fun v => Flags.update (v + 1)) s

/-! `INC` (R157), one definition per encoding. -/

def execIncZp (zp : Byte) (s : State) : Result := incrementAt (.zp zp) s
def execIncZpX (zp : Byte) (s : State) : Result := incrementAt (.zpX zp) s
def execIncAbs (addr : Addr) (s : State) : Result := incrementAt (.abs addr) s
def execIncAbsX (addr : Addr) (s : State) : Result := incrementAt (.absX addr) s

/-- Decrement the byte at the effective address (R158). -/
def decrementAt (m : MemForm) (s : State) : Result := modifyMem m (fun v => v - 1) (fun v => Flags.update (v - 1)) s

/-! `DEC` (R158), one definition per encoding. -/

def execDecZp (zp : Byte) (s : State) : Result := decrementAt (.zp zp) s
def execDecZpX (zp : Byte) (s : State) : Result := decrementAt (.zpX zp) s
def execDecAbs (addr : Addr) (s : State) : Result := decrementAt (.abs addr) s
def execDecAbsX (addr : Addr) (s : State) : Result := decrementAt (.absX addr) s

/-- `INX` (R159). -/
def execInx (s : State) : Result := .next (s.setX (s.x + 1))

/-- `INY` (R160). -/
def execIny (s : State) : Result := .next (s.setY (s.y + 1))

/-- `DEX` (R161). -/
def execDex (s : State) : Result := .next (s.setX (s.x - 1))

/-- `DEY` (R162). -/
def execDey (s : State) : Result := .next (s.setY (s.y - 1))

end Sys2Proof.Machine
end

