-- ==== Sys2Proof/Machine/Control.lean ====
section
/-! DEFINITION. Jumps, subroutines, return from interrupt and branches (R190-R205).
A meaning runs on the state after the fetch, with PC past the instruction (R24, R97); `cpuStep` counts it. -/

namespace Sys2Proof.Machine

/-- `JMP`, Absolute (R190). -/
def execJmpAbs (addr : Addr) (s : State) : Result := .next { s with pc := addr }

/-- `JMP`, Indirect (R190, R92). -/
def execJmpInd (ptr : Addr) (s : State) : Result :=
  let w := indirectTarget ptr s
  .next { w.2 with pc := w.1 }

/-- `JSR` (R191). -/
def execJsr (addr : Addr) (s : State) : Result :=
  let t := s.push16 (s.pc - 1)
  .next { t with pc := addr }

/-- `RTS` (R192). -/
def execRts (s : State) : Result :=
  let w := s.pop16
  .next { w.2 with pc := w.1 + 1 }

/-- `RTI` (R196). -/
def execRti (s : State) : Result := .next s.returnFromInterrupt

/-- `BCC` (R198). -/
def execBcc (rel : Byte) (s : State) : Result := branch (!s.flags.c) rel s

/-- `BCS` (R199). -/
def execBcs (rel : Byte) (s : State) : Result := branch s.flags.c rel s

/-- `BEQ` (R200). -/
def execBeq (rel : Byte) (s : State) : Result := branch s.flags.z rel s

/-- `BNE` (R201). -/
def execBne (rel : Byte) (s : State) : Result := branch (!s.flags.z) rel s

/-- `BMI` (R202). -/
def execBmi (rel : Byte) (s : State) : Result := branch s.flags.n rel s

/-- `BPL` (R203). -/
def execBpl (rel : Byte) (s : State) : Result := branch (!s.flags.n) rel s

/-- `BVC` (R204). -/
def execBvc (rel : Byte) (s : State) : Result := branch (!s.flags.v) rel s

/-- `BVS` (R205). -/
def execBvs (rel : Byte) (s : State) : Result := branch s.flags.v rel s

end Sys2Proof.Machine
end

