-- ==== Sys2Proof/Machine/FlagsSystem.lean ====
section
/-! DEFINITION. Flag instructions, NOP, BRK and TRAP (R210-R220).
A meaning runs on the state after the fetch, with PC past the instruction (R24, R97); `cpuStep` counts it. -/

namespace Sys2Proof.Machine

/-- `CLC` (R210). -/
def execClc (s : State) : Result := .next { s with flags := { s.flags with c := false } }

/-- `CLD` (R211). -/
def execCld (s : State) : Result := .next { s with flags := { s.flags with d := false } }

/-- `CLI` (R212). -/
def execCli (s : State) : Result := .next { s with flags := { s.flags with i := false } }

/-- `CLV` (R213). -/
def execClv (s : State) : Result := .next { s with flags := { s.flags with v := false } }

/-- `SEC` (R214). -/
def execSec (s : State) : Result := .next { s with flags := { s.flags with c := true } }

/-- `SED` (R215). -/
def execSed (s : State) : Result := .next { s with flags := { s.flags with d := true } }

/-- `SEI` (R216). -/
def execSei (s : State) : Result := .next { s with flags := { s.flags with i := true } }

/-- `NOP` (R217). -/
def execNop (s : State) : Result := .next s

/-- `BRK` (R218). -/
def execBrk (s : State) : Result := .fault (.unimplemented 0x00#8 s)

/-- `TRAP` (R219). -/
def execTrap (s : State) : Result :=
  match s.trapResponse with
  | .returns r => .next (s.afterTrap r)
  | .neverReturns => .fault (.trapNeverReturns s.a s)

end Sys2Proof.Machine
end

