-- ==== Sys2Proof/Machine/LoadStore.lean ====
section
/-! DEFINITION. Loads and stores (R120-R125).
A meaning runs on the state after the fetch, with PC past the instruction (R24, R97); `cpuStep` counts it. -/

namespace Sys2Proof.Machine

/-- `v <- Operand(mode); A <- v; Update(A)` (R120). -/
def loadA (f : ReadForm) (s : State) : Result := withOperand f (fun v t => t.setA v) s

/-! `LDA` (R120), one definition per encoding. -/

def execLdaImm (imm : Byte) (s : State) : Result := loadA (.imm imm) s
def execLdaZp (zp : Byte) (s : State) : Result := loadA (.mem (.zp zp)) s
def execLdaZpX (zp : Byte) (s : State) : Result := loadA (.mem (.zpX zp)) s
def execLdaAbs (addr : Addr) (s : State) : Result := loadA (.mem (.abs addr)) s
def execLdaAbsX (addr : Addr) (s : State) : Result := loadA (.mem (.absX addr)) s
def execLdaAbsY (addr : Addr) (s : State) : Result := loadA (.mem (.absY addr)) s
def execLdaIndX (zp : Byte) (s : State) : Result := loadA (.mem (.indX zp)) s
def execLdaIndY (zp : Byte) (s : State) : Result := loadA (.mem (.indY zp)) s

/-- `v <- Operand(mode); X <- v; Update(X)` (R121). -/
def loadX (f : ReadForm) (s : State) : Result := withOperand f (fun v t => t.setX v) s

/-! `LDX` (R121), one definition per encoding. -/

def execLdxImm (imm : Byte) (s : State) : Result := loadX (.imm imm) s
def execLdxZp (zp : Byte) (s : State) : Result := loadX (.mem (.zp zp)) s
def execLdxZpY (zp : Byte) (s : State) : Result := loadX (.mem (.zpY zp)) s
def execLdxAbs (addr : Addr) (s : State) : Result := loadX (.mem (.abs addr)) s
def execLdxAbsY (addr : Addr) (s : State) : Result := loadX (.mem (.absY addr)) s

/-- `v <- Operand(mode); Y <- v; Update(Y)` (R122). -/
def loadY (f : ReadForm) (s : State) : Result := withOperand f (fun v t => t.setY v) s

/-! `LDY` (R122), one definition per encoding. -/

def execLdyImm (imm : Byte) (s : State) : Result := loadY (.imm imm) s
def execLdyZp (zp : Byte) (s : State) : Result := loadY (.mem (.zp zp)) s
def execLdyZpX (zp : Byte) (s : State) : Result := loadY (.mem (.zpX zp)) s
def execLdyAbs (addr : Addr) (s : State) : Result := loadY (.mem (.abs addr)) s
def execLdyAbsX (addr : Addr) (s : State) : Result := loadY (.mem (.absX addr)) s

/-! `STA` (R123), one definition per encoding. -/

def execStaZp (zp : Byte) (s : State) : Result := storeTo (.zp zp) s.a s
def execStaZpX (zp : Byte) (s : State) : Result := storeTo (.zpX zp) s.a s
def execStaAbs (addr : Addr) (s : State) : Result := storeTo (.abs addr) s.a s
def execStaAbsX (addr : Addr) (s : State) : Result := storeTo (.absX addr) s.a s
def execStaAbsY (addr : Addr) (s : State) : Result := storeTo (.absY addr) s.a s
def execStaIndX (zp : Byte) (s : State) : Result := storeTo (.indX zp) s.a s
def execStaIndY (zp : Byte) (s : State) : Result := storeTo (.indY zp) s.a s

/-! `STX` (R124), one definition per encoding. -/

def execStxZp (zp : Byte) (s : State) : Result := storeTo (.zp zp) s.x s
def execStxZpY (zp : Byte) (s : State) : Result := storeTo (.zpY zp) s.x s
def execStxAbs (addr : Addr) (s : State) : Result := storeTo (.abs addr) s.x s

/-! `STY` (R125), one definition per encoding. -/

def execStyZp (zp : Byte) (s : State) : Result := storeTo (.zp zp) s.y s
def execStyZpX (zp : Byte) (s : State) : Result := storeTo (.zpX zp) s.y s
def execStyAbs (addr : Addr) (s : State) : Result := storeTo (.abs addr) s.y s

end Sys2Proof.Machine
end

