-- ==== Sys2Proof/Machine/LogicShift.lean ====
section
/-! DEFINITION. Logical operations, bit test, shifts and rotates (R170-R178).
A meaning runs on the state after the fetch, with PC past the instruction (R24, R97); `cpuStep` counts it. -/

namespace Sys2Proof.Machine

/-- `m <- Operand(mode); A <- op A m; Update(A)` (R170-R172). -/
def logicA (op : Byte → Byte → Byte) (f : ReadForm) (s : State) : Result :=
  withOperand f (fun m t => t.setA (op t.a m)) s

/-! `AND` (R170), one definition per encoding. -/

def execAndImm (imm : Byte) (s : State) : Result := logicA (fun a m => a &&& m) (.imm imm) s
def execAndZp (zp : Byte) (s : State) : Result := logicA (fun a m => a &&& m) (.mem (.zp zp)) s
def execAndZpX (zp : Byte) (s : State) : Result := logicA (fun a m => a &&& m) (.mem (.zpX zp)) s
def execAndAbs (addr : Addr) (s : State) : Result := logicA (fun a m => a &&& m) (.mem (.abs addr)) s
def execAndAbsX (addr : Addr) (s : State) : Result := logicA (fun a m => a &&& m) (.mem (.absX addr)) s
def execAndAbsY (addr : Addr) (s : State) : Result := logicA (fun a m => a &&& m) (.mem (.absY addr)) s
def execAndIndX (zp : Byte) (s : State) : Result := logicA (fun a m => a &&& m) (.mem (.indX zp)) s
def execAndIndY (zp : Byte) (s : State) : Result := logicA (fun a m => a &&& m) (.mem (.indY zp)) s

/-! `ORA` (R171), one definition per encoding. -/

def execOraImm (imm : Byte) (s : State) : Result := logicA (fun a m => a ||| m) (.imm imm) s
def execOraZp (zp : Byte) (s : State) : Result := logicA (fun a m => a ||| m) (.mem (.zp zp)) s
def execOraZpX (zp : Byte) (s : State) : Result := logicA (fun a m => a ||| m) (.mem (.zpX zp)) s
def execOraAbs (addr : Addr) (s : State) : Result := logicA (fun a m => a ||| m) (.mem (.abs addr)) s
def execOraAbsX (addr : Addr) (s : State) : Result := logicA (fun a m => a ||| m) (.mem (.absX addr)) s
def execOraAbsY (addr : Addr) (s : State) : Result := logicA (fun a m => a ||| m) (.mem (.absY addr)) s
def execOraIndX (zp : Byte) (s : State) : Result := logicA (fun a m => a ||| m) (.mem (.indX zp)) s
def execOraIndY (zp : Byte) (s : State) : Result := logicA (fun a m => a ||| m) (.mem (.indY zp)) s

/-! `EOR` (R172), one definition per encoding. -/

def execEorImm (imm : Byte) (s : State) : Result := logicA (fun a m => a ^^^ m) (.imm imm) s
def execEorZp (zp : Byte) (s : State) : Result := logicA (fun a m => a ^^^ m) (.mem (.zp zp)) s
def execEorZpX (zp : Byte) (s : State) : Result := logicA (fun a m => a ^^^ m) (.mem (.zpX zp)) s
def execEorAbs (addr : Addr) (s : State) : Result := logicA (fun a m => a ^^^ m) (.mem (.abs addr)) s
def execEorAbsX (addr : Addr) (s : State) : Result := logicA (fun a m => a ^^^ m) (.mem (.absX addr)) s
def execEorAbsY (addr : Addr) (s : State) : Result := logicA (fun a m => a ^^^ m) (.mem (.absY addr)) s
def execEorIndX (zp : Byte) (s : State) : Result := logicA (fun a m => a ^^^ m) (.mem (.indX zp)) s
def execEorIndY (zp : Byte) (s : State) : Result := logicA (fun a m => a ^^^ m) (.mem (.indY zp)) s

/-- Test A against the operand (R173). -/
def testBits (f : ReadForm) (s : State) : Result :=
  withOperand f (fun m t => { t with flags := bitFlags t.a m t.flags }) s

/-! `BIT` (R173), one definition per encoding. -/

def execBitZp (zp : Byte) (s : State) : Result := testBits (.mem (.zp zp)) s
def execBitAbs (addr : Addr) (s : State) : Result := testBits (.mem (.abs addr)) s

/-! `ASL` (R175), one definition per encoding. -/

def execAslAcc (s : State) : Result := shift .acc aslOp s
def execAslZp (zp : Byte) (s : State) : Result := shift (.mem (.zp zp)) aslOp s
def execAslZpX (zp : Byte) (s : State) : Result := shift (.mem (.zpX zp)) aslOp s
def execAslAbs (addr : Addr) (s : State) : Result := shift (.mem (.abs addr)) aslOp s
def execAslAbsX (addr : Addr) (s : State) : Result := shift (.mem (.absX addr)) aslOp s

/-! `LSR` (R176), one definition per encoding. -/

def execLsrAcc (s : State) : Result := shift .acc lsrOp s
def execLsrZp (zp : Byte) (s : State) : Result := shift (.mem (.zp zp)) lsrOp s
def execLsrZpX (zp : Byte) (s : State) : Result := shift (.mem (.zpX zp)) lsrOp s
def execLsrAbs (addr : Addr) (s : State) : Result := shift (.mem (.abs addr)) lsrOp s
def execLsrAbsX (addr : Addr) (s : State) : Result := shift (.mem (.absX addr)) lsrOp s

/-! `ROL` (R177), one definition per encoding. -/

def execRolAcc (s : State) : Result := shift .acc rolOp s
def execRolZp (zp : Byte) (s : State) : Result := shift (.mem (.zp zp)) rolOp s
def execRolZpX (zp : Byte) (s : State) : Result := shift (.mem (.zpX zp)) rolOp s
def execRolAbs (addr : Addr) (s : State) : Result := shift (.mem (.abs addr)) rolOp s
def execRolAbsX (addr : Addr) (s : State) : Result := shift (.mem (.absX addr)) rolOp s

/-! `ROR` (R178), one definition per encoding. -/

def execRorAcc (s : State) : Result := shift .acc rorOp s
def execRorZp (zp : Byte) (s : State) : Result := shift (.mem (.zp zp)) rorOp s
def execRorZpX (zp : Byte) (s : State) : Result := shift (.mem (.zpX zp)) rorOp s
def execRorAbs (addr : Addr) (s : State) : Result := shift (.mem (.abs addr)) rorOp s
def execRorAbsX (addr : Addr) (s : State) : Result := shift (.mem (.absX addr)) rorOp s

end Sys2Proof.Machine
end

