-- ==== Sys2Proof/Machine/TransferStack.lean ====
section
/-! DEFINITION. Register transfers (R130-R135) and the stack instructions (R136-R139).
A meaning runs on the state after the fetch, with PC past the instruction (R24, R97); `cpuStep` counts it. -/

namespace Sys2Proof.Machine

/-- `TAX` (R130). -/
def execTax (s : State) : Result := .next (s.setX s.a)

/-- `TAY` (R131). -/
def execTay (s : State) : Result := .next (s.setY s.a)

/-- `TXA` (R132). -/
def execTxa (s : State) : Result := .next (s.setA s.x)

/-- `TYA` (R133). -/
def execTya (s : State) : Result := .next (s.setA s.y)

/-- `TSX` (R134). -/
def execTsx (s : State) : Result := .next (s.setX s.sp)

/-- `TXS` (R135). -/
def execTxs (s : State) : Result := .next { s with sp := s.x }

/-- `PHA` (R136). -/
def execPha (s : State) : Result := .next (s.push8 s.a)

/-- `PHP` (R137). -/
def execPhp (s : State) : Result := .next (s.push8 s.flags.getByte)

/-- `PLA` (R138). -/
def execPla (s : State) : Result :=
  let p := s.pop8
  .next (p.2.setA p.1)

/-- `PLP` (R139). -/
def execPlp (s : State) : Result :=
  let p := s.pop8
  .next { p.2 with flags := p.2.flags.setByte p.1 }

end Sys2Proof.Machine
end

