-- ==== Sys2Proof/Machine/Cycle.lean ====
section
/-! DEFINITION. `Step` (R97), one turn of the host loop around it (R244), and where a program's bytes are put to be
fetched next (log 14). -/

namespace Sys2Proof.Machine

/-- `Step()` (R97): fetch, decode, run, count. A fatal error ends it with the state as it then is (R230, D24). As many
bytes are fetched as the opcode's descriptor says, so the stream given to the decoder is never too short. -/
def cpuStep (s : State) : Host.Outcome State Fault Refusal :=
  let f := s.fetchInstr
  match f.1 with
  | .instr i _ =>
    match exec i f.2 with
    | .next t => .next { t with icount := t.icount + 1 }
    | .fault r => .fault r
    | .refused r => .refused r
  | .unknownOpcode op => .fault (.unknownOpcode op f.2)
  | .unsupportedMode op m => .fault (.unsupportedMode op m f.2)
  | .truncated => .fault (.unknownOpcode 0x00#8 f.2)

/-- One turn of the host loop (R244): a Step, and after an Ok one the poll and `Interrupt` if it is requested. -/
def hostTurn (s : State) : Host.Outcome State Fault Refusal :=
  match cpuStep s with
  | .next t => .next t.boundary
  | .fault r => .fault r
  | .refused r => .refused r

/-- Put bytes where reads of `a`, `a + 1`, ... see them. -/
def placeBytes (a : Addr) : List Byte → Bus → Bus
  | [], b => b
  | v :: vs, b => placeBytes (a + 1) vs (b.place a v)

end Sys2Proof.Machine
end

