-- ==== Sys2Proof/Machine/Step.lean ====
section
/-! DEFINITION. The step of the model, and the state whose next step runs a given table word. -/

namespace Sys2Proof.Machine

/-- The step of the model: one turn of the host loop (R244). The check of `STOP_PCS`, which ends a run and is no
behaviour of the hardware (R245), stands in `hostLoop`. -/
def step (s : State) : Host.Outcome State Fault Refusal := hostTurn s

/-- The instruction of a table word put where the next step fetches: its bytes at PC and the addresses after it
(log 14). -/
def State.withFetchWord (s : State) (nbits w : Nat) : State :=
  { s with bus := placeBytes s.pc (tableWordBytes nbits w) s.bus }

end Sys2Proof.Machine
end

