-- ==== Sys2Proof/Machine/HostLoop.lean ====
section
/-! DEFINITION. What the host does around the step: assembling the system and loading it before the first Step
(R264-R266), and running it until a stop address, a fatal error, or for as long as it was asked to (R233, R245). -/

namespace Sys2Proof.Machine

/-! ## Boot (R264) -/

/-- Why a run never starts (R265, U10, U19). -/
inductive LaunchError where
  /-- "missing ROM/tape file" (R265) -/
  | missingImage
  /-- "a file larger than the declared size" (R49, R265) -/
  | imageTooLarge
  /-- `TRAP_OPCODE` outside the list of R99 (U10) -/
  | illegalTrapOpcode
deriving DecidableEq, Repr

/-- The bytes of an image held from bus address `a` on, up to the top of the address space. -/
def imageMemory (a : Nat) : List Byte → Memory
  | [] => []
  | v :: vs => if a < 65536 then Memory.write a v (imageMemory (a + 1) vs) else []

/-- A ROM device with its image "loaded verbatim" (R49, R265); `none` for a file that is missing. -/
def loadRom (base : Addr) (size : Nat) (onWrite : RomWritePolicy) : Option (List Byte) → Except LaunchError Device
  | none => .error .missingImage
  | some image =>
    if romImageFits size image then .ok ⟨base, size, .rom (imageMemory base.toNat image) onWrite⟩
    else .error .imageTooLarge

/-- A byte of a vector patch: a write to every device that contains the address, in which a ROM holds the byte whatever
its write policy is (R266, D32; log 17). -/
def Device.patch (n : Nat) (a : Addr) (v : Byte) (calls : List BusCall) (d : Device) : Device × List BusCall :=
  match d.kind with
  | .rom m p => ({ d with kind := .rom (m.write a.toNat v) p }, calls)
  | _ => d.write n a v calls

/-- `Device.patch` over the devices in priority order. -/
def patchDevices (a : Addr) (v : Byte) (calls : List BusCall) : List Device → List Device × List BusCall
  | [] => ([], calls)
  | d :: ds =>
    let r := if d.contains a then d.patch ds.length a v calls else (d, calls)
    let rest := patchDevices a v r.2 ds
    (r.1 :: rest.1, rest.2)

/-- The bytes of a vector patch, in order from `t` on (R266). -/
def patchBytes (t : Addr) : List Byte → Bus → Bus
  | [], b => b
  | v :: vs, b =>
    let r := patchDevices t v b.calls b.devices
    patchBytes (t + 1) vs ⟨r.1, r.2⟩

/-- The vector patch (R266): the target is the word at `vector + 1`, read through the bus. -/
def State.vectorPatch (vector : Addr) (bytes : List Byte) (s : State) : State :=
  let t := s.readWord (vector + 1)
  { t.2 with bus := patchBytes t.1 bytes t.2.bus }

/-- A machine with no device mapped and nothing run, before boot. -/
def State.unassembled (p : Params) (queue : List TrapCallback) : State :=
  { State.reset with bus := ⟨[], []⟩, params := p, trapQueue := queue }

/-- Boot (R264): map the devices, the first of the list first, then the patches, then reset. The launch is refused
where `TRAP_OPCODE` is illegal (U10) or a ROM could not be loaded (R265). -/
def boot (p : Params) (queue : List TrapCallback) (devices : List (Except LaunchError Device))
    (patches : List (Addr × List Byte)) (draws : ResetDraws) : Except LaunchError State :=
  if p.wellFormed then
    match devices.mapM id with
    | .error e => .error e
    | .ok ds =>
      let mapped := ds.foldl (fun s d => { s with bus := s.bus.map d }) (State.unassembled p queue)
      let patched := patches.foldl (fun s v => s.vectorPatch v.1 v.2) mapped
      .ok (patched.resetWith draws)
  else .error .illegalTrapOpcode

/-! ## Running (R244, R245) -/

/-- How a run of the host loop ends. -/
inductive RunEnd where
  /-- an instruction boundary with PC in `STOP_PCS` (R245) -/
  | ended (s : State)
  /-- a fatal error: "dump and halt" (R233) -/
  | faulted (f : Fault)
  /-- the model gives the instruction no meaning -/
  | refused (r : Refusal)
  /-- still running after the steps asked for -/
  | running (s : State)
deriving DecidableEq, Repr

/-- PC is in `STOP_PCS` (R245). -/
def State.atStop (s : State) : Bool := s.params.stopPcs.contains s.pc

/-- `HostLoop()` for at most `n` turns (R244): the stop address is checked before each Step (R245). -/
def hostLoop : Nat → State → RunEnd
  | 0, s => if s.atStop then .ended s else .running s
  | n + 1, s =>
    if s.atStop then .ended s
    else
      match step s with
      | .next t => hostLoop n t
      | .fault f => .faulted f
      | .refused r => .refused r

end Sys2Proof.Machine
end

