-- ==== Sys2Proof/Safety.lean ====
section
/-! DEFINITION. The terms claims use: the invariant of every run, what "memory is unchanged" means, and what an
instruction leaves alone. -/

namespace Sys2Proof.Machine

/-- What holds of every state a run reaches: every device's bytes are in canonical form (log 13), B is 0 (R33), and
`TRAP_OPCODE` is legal (U10). -/
def State.Inv (s : State) : Prop :=
  s.bus.wf = true ∧ s.flags.b = false ∧ s.params.wellFormed = true

/-- From `s` to `t`, no byte of memory changes but at the addresses `stored`: every other address reads as before (where
memory answers), and every device, answering or shadowed, holds what it held there. -/
def MemoryKeptOutside (stored : List Addr) (s t : State) : Prop :=
  ∀ a, a ∉ stored → t.bus.peek a = s.bus.peek a ∧ ∀ k, t.bus.heldBy k a = s.bus.heldBy k a

/-- From `s` to `t`, what no ordinary instruction touches is unchanged: the guard, the counter, the parameters, the
host's queue and its calls, and the devices as units. -/
def SystemKept (s t : State) : Prop :=
  t.inIRQ = s.inIRQ ∧ t.icount = s.icount ∧ t.params = s.params ∧ t.trapQueue = s.trapQueue ∧
    t.trapCalls = s.trapCalls ∧ t.bus.units = s.bus.units

/-- The registers A, X, Y, SP and PC are unchanged. -/
def RegistersKept (s t : State) : Prop :=
  t.a = s.a ∧ t.x = s.x ∧ t.y = s.y ∧ t.sp = s.sp ∧ t.pc = s.pc

/-- Memory answers reads of an address and takes writes to it: the answering device is a RAM (R48). -/
def Bus.ramAt (b : Bus) (a : Addr) : Prop := ∃ base size m, b.answering a = some ⟨base, size, .ram m⟩

/-! ## The encodings of the instructions with several addressing forms

`z` is the one operand byte, or `lo` and `hi` the two, lowest address first (R81). -/

/-- One encoding: its opcode byte, its operand bytes, the instruction, and the operand form it names. -/
structure Coding (α : Type) where
  opcode : Byte
  operands : List Byte
  instr : Instr
  form : α

/-- These bytes are that instruction, whatever legal value `TRAP_OPCODE` has. -/
def IsCodedAs (bytes : List Byte) (i : Instr) : Prop :=
  ∀ k, trapOpcodeLegal k = true → decode k bytes = .instr i []

/-- The bytes of a coding are its instruction. -/
def Coding.Right {α : Type} (e : Coding α) : Prop := IsCodedAs (e.opcode :: e.operands) e.instr

/-- The encodings of `LDA` (R120). -/
def codingsLda (z lo hi : Byte) : List (Coding ReadForm) := [
  ⟨0xA9#8, [z], .ldaImm z, .imm z⟩,
  ⟨0xA5#8, [z], .ldaZp z, .mem (.zp z)⟩,
  ⟨0xB5#8, [z], .ldaZpX z, .mem (.zpX z)⟩,
  ⟨0xAD#8, [lo, hi], .ldaAbs (joinBytes hi lo), .mem (.abs (joinBytes hi lo))⟩,
  ⟨0xBD#8, [lo, hi], .ldaAbsX (joinBytes hi lo), .mem (.absX (joinBytes hi lo))⟩,
  ⟨0xB9#8, [lo, hi], .ldaAbsY (joinBytes hi lo), .mem (.absY (joinBytes hi lo))⟩,
  ⟨0xA1#8, [z], .ldaIndX z, .mem (.indX z)⟩,
  ⟨0xB1#8, [z], .ldaIndY z, .mem (.indY z)⟩]

/-- The encodings of `LDX` (R121). -/
def codingsLdx (z lo hi : Byte) : List (Coding ReadForm) := [
  ⟨0xA2#8, [z], .ldxImm z, .imm z⟩,
  ⟨0xA6#8, [z], .ldxZp z, .mem (.zp z)⟩,
  ⟨0xB6#8, [z], .ldxZpY z, .mem (.zpY z)⟩,
  ⟨0xAE#8, [lo, hi], .ldxAbs (joinBytes hi lo), .mem (.abs (joinBytes hi lo))⟩,
  ⟨0xBE#8, [lo, hi], .ldxAbsY (joinBytes hi lo), .mem (.absY (joinBytes hi lo))⟩]

/-- The encodings of `LDY` (R122). -/
def codingsLdy (z lo hi : Byte) : List (Coding ReadForm) := [
  ⟨0xA0#8, [z], .ldyImm z, .imm z⟩,
  ⟨0xA4#8, [z], .ldyZp z, .mem (.zp z)⟩,
  ⟨0xB4#8, [z], .ldyZpX z, .mem (.zpX z)⟩,
  ⟨0xAC#8, [lo, hi], .ldyAbs (joinBytes hi lo), .mem (.abs (joinBytes hi lo))⟩,
  ⟨0xBC#8, [lo, hi], .ldyAbsX (joinBytes hi lo), .mem (.absX (joinBytes hi lo))⟩]

/-- The encodings of `ADC` (R151). -/
def codingsAdc (z lo hi : Byte) : List (Coding ReadForm) := [
  ⟨0x69#8, [z], .adcImm z, .imm z⟩,
  ⟨0x65#8, [z], .adcZp z, .mem (.zp z)⟩,
  ⟨0x75#8, [z], .adcZpX z, .mem (.zpX z)⟩,
  ⟨0x6D#8, [lo, hi], .adcAbs (joinBytes hi lo), .mem (.abs (joinBytes hi lo))⟩,
  ⟨0x7D#8, [lo, hi], .adcAbsX (joinBytes hi lo), .mem (.absX (joinBytes hi lo))⟩,
  ⟨0x79#8, [lo, hi], .adcAbsY (joinBytes hi lo), .mem (.absY (joinBytes hi lo))⟩,
  ⟨0x61#8, [z], .adcIndX z, .mem (.indX z)⟩,
  ⟨0x71#8, [z], .adcIndY z, .mem (.indY z)⟩]

/-- The encodings of `SBC` (R152). -/
def codingsSbc (z lo hi : Byte) : List (Coding ReadForm) := [
  ⟨0xE9#8, [z], .sbcImm z, .imm z⟩,
  ⟨0xE5#8, [z], .sbcZp z, .mem (.zp z)⟩,
  ⟨0xF5#8, [z], .sbcZpX z, .mem (.zpX z)⟩,
  ⟨0xED#8, [lo, hi], .sbcAbs (joinBytes hi lo), .mem (.abs (joinBytes hi lo))⟩,
  ⟨0xFD#8, [lo, hi], .sbcAbsX (joinBytes hi lo), .mem (.absX (joinBytes hi lo))⟩,
  ⟨0xF9#8, [lo, hi], .sbcAbsY (joinBytes hi lo), .mem (.absY (joinBytes hi lo))⟩,
  ⟨0xE1#8, [z], .sbcIndX z, .mem (.indX z)⟩,
  ⟨0xF1#8, [z], .sbcIndY z, .mem (.indY z)⟩]

/-- The encodings of `CMP` (R154). -/
def codingsCmp (z lo hi : Byte) : List (Coding ReadForm) := [
  ⟨0xC9#8, [z], .cmpImm z, .imm z⟩,
  ⟨0xC5#8, [z], .cmpZp z, .mem (.zp z)⟩,
  ⟨0xD5#8, [z], .cmpZpX z, .mem (.zpX z)⟩,
  ⟨0xCD#8, [lo, hi], .cmpAbs (joinBytes hi lo), .mem (.abs (joinBytes hi lo))⟩,
  ⟨0xDD#8, [lo, hi], .cmpAbsX (joinBytes hi lo), .mem (.absX (joinBytes hi lo))⟩,
  ⟨0xD9#8, [lo, hi], .cmpAbsY (joinBytes hi lo), .mem (.absY (joinBytes hi lo))⟩,
  ⟨0xC1#8, [z], .cmpIndX z, .mem (.indX z)⟩,
  ⟨0xD1#8, [z], .cmpIndY z, .mem (.indY z)⟩]

/-- The encodings of `CPX` (R155). -/
def codingsCpx (z lo hi : Byte) : List (Coding ReadForm) := [
  ⟨0xE0#8, [z], .cpxImm z, .imm z⟩,
  ⟨0xE4#8, [z], .cpxZp z, .mem (.zp z)⟩,
  ⟨0xEC#8, [lo, hi], .cpxAbs (joinBytes hi lo), .mem (.abs (joinBytes hi lo))⟩]

/-- The encodings of `CPY` (R156). -/
def codingsCpy (z lo hi : Byte) : List (Coding ReadForm) := [
  ⟨0xC0#8, [z], .cpyImm z, .imm z⟩,
  ⟨0xC4#8, [z], .cpyZp z, .mem (.zp z)⟩,
  ⟨0xCC#8, [lo, hi], .cpyAbs (joinBytes hi lo), .mem (.abs (joinBytes hi lo))⟩]

/-- The encodings of `AND` (R170). -/
def codingsAnd (z lo hi : Byte) : List (Coding ReadForm) := [
  ⟨0x29#8, [z], .andImm z, .imm z⟩,
  ⟨0x25#8, [z], .andZp z, .mem (.zp z)⟩,
  ⟨0x35#8, [z], .andZpX z, .mem (.zpX z)⟩,
  ⟨0x2D#8, [lo, hi], .andAbs (joinBytes hi lo), .mem (.abs (joinBytes hi lo))⟩,
  ⟨0x3D#8, [lo, hi], .andAbsX (joinBytes hi lo), .mem (.absX (joinBytes hi lo))⟩,
  ⟨0x39#8, [lo, hi], .andAbsY (joinBytes hi lo), .mem (.absY (joinBytes hi lo))⟩,
  ⟨0x21#8, [z], .andIndX z, .mem (.indX z)⟩,
  ⟨0x31#8, [z], .andIndY z, .mem (.indY z)⟩]

/-- The encodings of `ORA` (R171). -/
def codingsOra (z lo hi : Byte) : List (Coding ReadForm) := [
  ⟨0x09#8, [z], .oraImm z, .imm z⟩,
  ⟨0x05#8, [z], .oraZp z, .mem (.zp z)⟩,
  ⟨0x15#8, [z], .oraZpX z, .mem (.zpX z)⟩,
  ⟨0x0D#8, [lo, hi], .oraAbs (joinBytes hi lo), .mem (.abs (joinBytes hi lo))⟩,
  ⟨0x1D#8, [lo, hi], .oraAbsX (joinBytes hi lo), .mem (.absX (joinBytes hi lo))⟩,
  ⟨0x19#8, [lo, hi], .oraAbsY (joinBytes hi lo), .mem (.absY (joinBytes hi lo))⟩,
  ⟨0x01#8, [z], .oraIndX z, .mem (.indX z)⟩,
  ⟨0x11#8, [z], .oraIndY z, .mem (.indY z)⟩]

/-- The encodings of `EOR` (R172). -/
def codingsEor (z lo hi : Byte) : List (Coding ReadForm) := [
  ⟨0x49#8, [z], .eorImm z, .imm z⟩,
  ⟨0x45#8, [z], .eorZp z, .mem (.zp z)⟩,
  ⟨0x55#8, [z], .eorZpX z, .mem (.zpX z)⟩,
  ⟨0x4D#8, [lo, hi], .eorAbs (joinBytes hi lo), .mem (.abs (joinBytes hi lo))⟩,
  ⟨0x5D#8, [lo, hi], .eorAbsX (joinBytes hi lo), .mem (.absX (joinBytes hi lo))⟩,
  ⟨0x59#8, [lo, hi], .eorAbsY (joinBytes hi lo), .mem (.absY (joinBytes hi lo))⟩,
  ⟨0x41#8, [z], .eorIndX z, .mem (.indX z)⟩,
  ⟨0x51#8, [z], .eorIndY z, .mem (.indY z)⟩]

/-- The encodings of `BIT` (R173). -/
def codingsBit (z lo hi : Byte) : List (Coding ReadForm) := [
  ⟨0x24#8, [z], .bitZp z, .mem (.zp z)⟩,
  ⟨0x2C#8, [lo, hi], .bitAbs (joinBytes hi lo), .mem (.abs (joinBytes hi lo))⟩]

/-- The encodings of `STA` (R123). -/
def codingsSta (z lo hi : Byte) : List (Coding MemForm) := [
  ⟨0x85#8, [z], .staZp z, .zp z⟩,
  ⟨0x95#8, [z], .staZpX z, .zpX z⟩,
  ⟨0x8D#8, [lo, hi], .staAbs (joinBytes hi lo), .abs (joinBytes hi lo)⟩,
  ⟨0x9D#8, [lo, hi], .staAbsX (joinBytes hi lo), .absX (joinBytes hi lo)⟩,
  ⟨0x99#8, [lo, hi], .staAbsY (joinBytes hi lo), .absY (joinBytes hi lo)⟩,
  ⟨0x81#8, [z], .staIndX z, .indX z⟩,
  ⟨0x91#8, [z], .staIndY z, .indY z⟩]

/-- The encodings of `STX` (R124). -/
def codingsStx (z lo hi : Byte) : List (Coding MemForm) := [
  ⟨0x86#8, [z], .stxZp z, .zp z⟩,
  ⟨0x96#8, [z], .stxZpY z, .zpY z⟩,
  ⟨0x8E#8, [lo, hi], .stxAbs (joinBytes hi lo), .abs (joinBytes hi lo)⟩]

/-- The encodings of `STY` (R125). -/
def codingsSty (z lo hi : Byte) : List (Coding MemForm) := [
  ⟨0x84#8, [z], .styZp z, .zp z⟩,
  ⟨0x94#8, [z], .styZpX z, .zpX z⟩,
  ⟨0x8C#8, [lo, hi], .styAbs (joinBytes hi lo), .abs (joinBytes hi lo)⟩]

/-- The encodings of `INC` (R157). -/
def codingsInc (z lo hi : Byte) : List (Coding MemForm) := [
  ⟨0xE6#8, [z], .incZp z, .zp z⟩,
  ⟨0xF6#8, [z], .incZpX z, .zpX z⟩,
  ⟨0xEE#8, [lo, hi], .incAbs (joinBytes hi lo), .abs (joinBytes hi lo)⟩,
  ⟨0xFE#8, [lo, hi], .incAbsX (joinBytes hi lo), .absX (joinBytes hi lo)⟩]

/-- The encodings of `DEC` (R158). -/
def codingsDec (z lo hi : Byte) : List (Coding MemForm) := [
  ⟨0xC6#8, [z], .decZp z, .zp z⟩,
  ⟨0xD6#8, [z], .decZpX z, .zpX z⟩,
  ⟨0xCE#8, [lo, hi], .decAbs (joinBytes hi lo), .abs (joinBytes hi lo)⟩,
  ⟨0xDE#8, [lo, hi], .decAbsX (joinBytes hi lo), .absX (joinBytes hi lo)⟩]

/-- The encodings of `ASL` (R175). -/
def codingsAsl (z lo hi : Byte) : List (Coding ShiftForm) := [
  ⟨0x0A#8, [], .aslAcc, .acc⟩,
  ⟨0x06#8, [z], .aslZp z, .mem (.zp z)⟩,
  ⟨0x16#8, [z], .aslZpX z, .mem (.zpX z)⟩,
  ⟨0x0E#8, [lo, hi], .aslAbs (joinBytes hi lo), .mem (.abs (joinBytes hi lo))⟩,
  ⟨0x1E#8, [lo, hi], .aslAbsX (joinBytes hi lo), .mem (.absX (joinBytes hi lo))⟩]

/-- The encodings of `LSR` (R176). -/
def codingsLsr (z lo hi : Byte) : List (Coding ShiftForm) := [
  ⟨0x4A#8, [], .lsrAcc, .acc⟩,
  ⟨0x46#8, [z], .lsrZp z, .mem (.zp z)⟩,
  ⟨0x56#8, [z], .lsrZpX z, .mem (.zpX z)⟩,
  ⟨0x4E#8, [lo, hi], .lsrAbs (joinBytes hi lo), .mem (.abs (joinBytes hi lo))⟩,
  ⟨0x5E#8, [lo, hi], .lsrAbsX (joinBytes hi lo), .mem (.absX (joinBytes hi lo))⟩]

/-- The encodings of `ROL` (R177). -/
def codingsRol (z lo hi : Byte) : List (Coding ShiftForm) := [
  ⟨0x2A#8, [], .rolAcc, .acc⟩,
  ⟨0x26#8, [z], .rolZp z, .mem (.zp z)⟩,
  ⟨0x36#8, [z], .rolZpX z, .mem (.zpX z)⟩,
  ⟨0x2E#8, [lo, hi], .rolAbs (joinBytes hi lo), .mem (.abs (joinBytes hi lo))⟩,
  ⟨0x3E#8, [lo, hi], .rolAbsX (joinBytes hi lo), .mem (.absX (joinBytes hi lo))⟩]

/-- The encodings of `ROR` (R178). -/
def codingsRor (z lo hi : Byte) : List (Coding ShiftForm) := [
  ⟨0x6A#8, [], .rorAcc, .acc⟩,
  ⟨0x66#8, [z], .rorZp z, .mem (.zp z)⟩,
  ⟨0x76#8, [z], .rorZpX z, .mem (.zpX z)⟩,
  ⟨0x6E#8, [lo, hi], .rorAbs (joinBytes hi lo), .mem (.abs (joinBytes hi lo))⟩,
  ⟨0x7E#8, [lo, hi], .rorAbsX (joinBytes hi lo), .mem (.absX (joinBytes hi lo))⟩]

end Sys2Proof.Machine
end

