-- ==== Sys2Proof/Certificates/Slice0/Obligations.lean ====
section
/-! DEFINITION. The statements for the provers. A statement about an instruction is about `exec`, which runs on the state
after the fetch (R24, R97): `s.pc` is there the address after the instruction. -/

open Sys2Proof Sys2Proof.Machine

/-! ## Terms of the statements, from the spec's words -/

namespace Sys2Proof.Said

/-- The flags after `Update(v)`, from R29: Zero == (v == 0), Negative == bit 7. -/
def updated (v : Byte) (f : Flags) : Flags := { f with z := decide (v.toNat = 0), n := decide (128 ≤ v.toNat) }

/-- A carry as the integer 0 or 1 (R5). -/
def carry (f : Flags) : Nat := if f.c = true then 1 else 0

/-- The address of the stack byte SP designates, from R55: 0x0100 + SP. -/
def stackByte (sp : Byte) : Addr := BitVec.ofNat 16 (256 + sp.toNat)

/-- `RTI_PC_BIAS` as an integer (R195). -/
def bias (p : Params) : Nat := if p.rtiPcBias = .one then 1 else 0

/-- A shift instruction at form `f` leaves `result v` where it found `v`, and `out v` in Carry, and updates (R174). -/
def Shifts (i : Instr) (f : ShiftForm) (s : State) (result : Byte → Byte) (out : Byte → Bool) : Prop :=
  match f with
  | .acc => exec i s = .next { s with a := result s.a, flags := updated (result s.a) { s.flags with c := out s.a } }
  | .mem m =>
    let ea := effectiveAddr m s
    let v := ea.2.bus.read ea.1
    exec i s = .next { s with
      bus := v.2.write ea.1 (result v.1)
      flags := updated (result v.1) { s.flags with c := out v.1 } }

/-- The bus after the accesses of a TRAP callback. -/
def busAfter (l : List BusAction) (b : Bus) : Bus :=
  l.foldl (fun b act => match act with
    | .read a => (b.read a).2
    | .write a v => b.write a v) b

/-- Every address is answered by one peripheral, so that it sees every access. -/
def OnlyPeripheral (b : Bus) : Prop := ∃ p, b.devices = [⟨0x0000#16, 65536, .peripheral p⟩]

/-- What that peripheral records of a read of `a` on the bus `b`: the address and the byte it answers. -/
def readEntry (a : Addr) (b : Bus) : BusCall := ⟨0, .read a (b.read a).1⟩

/-- What it records of `bytes` fetched from `pc` on: one read each, in address order modulo 65536; newest first. -/
def fetchEntries (pc : Addr) (bytes : List Byte) : List BusCall :=
  (bytes.mapIdx fun j v => ⟨0, .read (pc + BitVec.ofNat 16 j) v⟩).reverse

end Sys2Proof.Said

open Sys2Proof.Said

/-! ## Encoding -/

/-- Decoding an encoded instruction gives it back, with every operand at every value and any bytes after it, for every
legal `TRAP_OPCODE` (R80, R81, R83, R99, R219). -/
def Obligations.DecodeOfEncodeIsTheInstruction : Prop :=
  ∀ (k : Byte) (i : Instr) (rest : List Byte), trapOpcodeLegal k = true →
    i.wellFormed k = true ∧ decode k (encode k i ++ rest) = .instr i rest

/-- Only its own bytes decode to an instruction: no bit of an encoding is dropped and no two encodings share a meaning
(R80, R83, R101). -/
def Obligations.BytesOfADecodedInstructionAreItsEncoding : Prop :=
  ∀ (k : Byte) (bytes rest : List Byte) (i : Instr), trapOpcodeLegal k = true →
    decode k bytes = .instr i rest → bytes = encode k i ++ rest

/-- Fourteen words written out from the map of R83 and the formats of R81: each of the 13 modes, and every family of the
instruction sections. -/
def Obligations.SampleWordsDecode : Prop :=
  IsCodedAs [0xA9#8, 0x80#8] (.ldaImm 0x80#8) ∧ IsCodedAs [0x8D#8, 0x34#8, 0x12#8] (.staAbs 0x1234#16) ∧
  IsCodedAs [0xBA#8] .tsx ∧ IsCodedAs [0x71#8, 0x10#8] (.adcIndY 0x10#8) ∧
  IsCodedAs [0xDE#8, 0x00#8, 0x20#8] (.decAbsX 0x2000#16) ∧ IsCodedAs [0x6A#8] .rorAcc ∧
  IsCodedAs [0x6C#8, 0xFF#8, 0x02#8] (.jmpInd 0x02FF#16) ∧ IsCodedAs [0xF0#8, 0xFE#8] (.beq 0xFE#8) ∧
  IsCodedAs [0xB6#8, 0xFF#8] (.ldxZpY 0xFF#8) ∧ IsCodedAs [0x58#8] .cli ∧
  IsCodedAs [0xC5#8, 0x42#8] (.cmpZp 0x42#8) ∧ IsCodedAs [0x35#8, 0xF0#8] (.andZpX 0xF0#8) ∧
  IsCodedAs [0x59#8, 0xCD#8, 0xAB#8] (.eorAbsY 0xABCD#16) ∧ IsCodedAs [0x01#8, 0x80#8] (.oraIndX 0x80#8)

/-- The bytes without a descriptor are those of R99 other than `TRAP_OPCODE` (R82, R96, R99). -/
def Obligations.UndocumentedBytesHaveNoDescriptor : Prop :=
  ∀ k op : Byte, trapOpcodeLegal k = true →
    (descriptor k op = none ↔ op.toNat ∈ undocumentedOpcodes ∧ op ≠ k)

/-! ## The step -/

/-- When the bytes at PC decode to an instruction, the step is `exec` of it on the state after fetching exactly them,
with icount one more, then the poll and the interrupt it may bring (R84, R97, R244). -/
def Obligations.StepRunsDecodedInstruction : Prop :=
  ∀ (s : State) (n : Nat) (i : Instr), decode s.params.trapOpcode (s.fetchBytes n).1 = .instr i [] →
    step s = match exec i (s.fetchBytes n).2 with
      | .next t => .next (State.boundary { t with icount := t.icount + 1 })
      | .fault f => .fault f
      | .refused r => .refused r

/-- Fetching reads the bytes at PC, PC+1, ... modulo 65536, one bus read each, and moves PC past them; nothing else changes
(R24, R84). Memory gives the bytes it holds; a peripheral sees exactly these reads, in address order (R65, R98). -/
def Obligations.FetchReadsBytesAtPc : Prop :=
  (∀ (bytes : List Byte) (s : State),
    (∀ (j : Nat) (v : Byte), bytes[j]? = some v → s.bus.peek (s.pc + BitVec.ofNat 16 j) = some v) →
    s.fetchBytes bytes.length = (bytes, { s with pc := s.pc + BitVec.ofNat 16 bytes.length })) ∧
  (∀ (n : Nat) (s : State),
    let f := s.fetchBytes n
    let r := f.2.bus.read f.2.pc
    f.1.length = n ∧ f.2 = { s with pc := s.pc + BitVec.ofNat 16 n, bus := f.2.bus } ∧
    s.fetchBytes (n + 1) = (f.1 ++ [r.1], { f.2 with pc := f.2.pc + 1, bus := r.2 }) ∧
    (OnlyPeripheral s.bus → OnlyPeripheral f.2.bus ∧ f.2.bus.calls = fetchEntries s.pc f.1 ++ s.bus.calls))

/-- An opcode with no descriptor is fatal after the opcode fetch and before any other access; PC is past the opcode and
nothing else has changed (R96, R231). -/
def Obligations.UnknownOpcodeIsFatal : Prop :=
  ∀ s : State, (s.bus.read s.pc).1.toNat ∈ undocumentedOpcodes → (s.bus.read s.pc).1 ≠ s.params.trapOpcode →
    step s = .fault (.unknownOpcode (s.bus.read s.pc).1 { s with pc := s.pc + 1, bus := (s.bus.read s.pc).2 })

/-- BRK is always fatal: after the opcode fetch, with PC one past BRK and nothing else changed (R218, R234). -/
def Obligations.BrkIsFatal : Prop :=
  IsCodedAs [0x00#8] .brk ∧ (∀ s : State, exec .brk s = .fault (.unimplemented 0x00#8 s)) ∧
    ∀ s : State, trapOpcodeLegal s.params.trapOpcode = true → (s.bus.read s.pc).1 = 0x00#8 →
      step s = .fault (.unimplemented 0x00#8 { s with pc := s.pc + 1, bus := (s.bus.read s.pc).2 })

/-- No step raises `UnsupportedMode`: the table pairs every handler with a mode it supports (R103, R232). -/
def Obligations.UnsupportedModeIsUnreachable : Prop :=
  ∀ (s t : State) (op : Byte) (m : Mode), step s ≠ .fault (.unsupportedMode op m t)

/-- Nothing else stops an instruction: every one but BRK completes in every state, TRAP where its callback returns
(R235). -/
def Obligations.EveryOtherInstructionCompletes : Prop :=
  ∀ (i : Instr) (s : State), i ≠ .brk → (i = .trap → s.trapResponse ≠ .neverReturns) → ∃ t, exec i s = .next t

/-! ## Rules of the whole machine -/

/-- RTI clears the reentrancy guard and no other instruction writes it (R26, R196). -/
def Obligations.GuardIsWrittenByRtiAlone : Prop :=
  ∀ (i : Instr) (s t : State), exec i s = .next t → t.inIRQ = if i = .rti then false else s.inIRQ

/-- RTI forces B to 0 and no other instruction writes it, TRAP's callback included (R33, R196, R220). -/
def Obligations.BreakIsWrittenByRtiAlone : Prop :=
  ∀ (i : Instr) (s t : State), exec i s = .next t → t.flags.b = if i = .rti then false else s.flags.b

/-- A step that completes adds one to icount, whatever the instruction and whether or not an interrupt is taken
(R27, R97, D22). -/
def Obligations.StepCountsOneInstruction : Prop :=
  ∀ s t : State, step s = .next t → t.icount = s.icount + 1

/-- D has no effect on ADC and SBC: with D changed they do the same and leave D as it is (R32, R150, D14). This compares two
runs: where a peripheral with no queued answer supplies the operand or a pointer byte, it rests on the model's choice of
log 24, that a free value is the same in both. -/
def Obligations.DecimalFlagDoesNotChangeArithmetic : Prop :=
  ∀ (z lo hi : Byte) (s t : State) (d : Bool), ∀ e ∈ codingsAdc z lo hi ++ codingsSbc z lo hi,
    exec e.instr s = .next t →
    exec e.instr { s with flags := { s.flags with d := d } } = .next { t with flags := { t.flags with d := d } }

/-- Which instructions write A, X, Y, SP and PC, beyond the fetch's advance of PC (R21-R24). -/
def Obligations.RegistersAreWrittenOnlyByTheirWriters : Prop :=
  ∀ (i : Instr) (s t : State), exec i s = .next t →
    (i.mnemonic ∉ [.LDA, .TXA, .TYA, .PLA, .ADC, .SBC, .AND, .ORA, .EOR, .ASL, .LSR, .ROL, .ROR, .TRAP] → t.a = s.a) ∧
    (i.mode ≠ .ACC → i.mnemonic ∈ [.ASL, .LSR, .ROL, .ROR] → t.a = s.a) ∧
    (i.mnemonic ∉ [.LDX, .TAX, .TSX, .INX, .DEX, .TRAP] → t.x = s.x) ∧
    (i.mnemonic ∉ [.LDY, .TAY, .INY, .DEY, .TRAP] → t.y = s.y) ∧
    (i.mnemonic ∉ [.TXS, .PHA, .PHP, .PLA, .PLP, .JSR, .RTS, .RTI] → t.sp = s.sp) ∧
    (i.mode ≠ .REL → i.mnemonic ∉ [.JMP, .JSR, .RTS, .RTI] → t.pc = s.pc)

/-- No flag is written as a side effect by an instruction that R25 does not list for it. -/
def Obligations.FlagsAreWrittenOnlyByTheirWriters : Prop :=
  ∀ (i : Instr) (s t : State), exec i s = .next t →
    (i.mnemonic ∉ [.ADC, .SBC, .CMP, .CPX, .CPY, .ASL, .LSR, .ROL, .ROR, .CLC, .SEC, .PLP, .RTI, .TRAP] →
      t.flags.c = s.flags.c) ∧
    (i.mnemonic ∉ [.LDA, .LDX, .LDY, .TAX, .TAY, .TXA, .TYA, .TSX, .PLA, .AND, .ORA, .EOR, .ASL, .LSR, .ROL, .ROR, .INC,
        .DEC, .INX, .INY, .DEX, .DEY, .ADC, .SBC, .CMP, .CPX, .CPY, .BIT, .PLP, .RTI, .TRAP] →
      t.flags.z = s.flags.z ∧ t.flags.n = s.flags.n) ∧
    (i.mnemonic ∉ [.CLI, .SEI, .PLP, .RTI, .TRAP] → t.flags.i = s.flags.i) ∧
    (i.mnemonic ∉ [.CLD, .SED, .PLP, .RTI, .TRAP] → t.flags.d = s.flags.d) ∧
    (i.mnemonic ≠ .RTI → t.flags.b = s.flags.b) ∧
    (i.mnemonic ∉ [.ADC, .SBC, .BIT, .CLV, .PLP, .RTI, .TRAP] → t.flags.v = s.flags.v)

/-- The device list and the launch parameters are fixed during a run (R43, D21, R4). -/
def Obligations.StepKeepsDevicesAndParameters : Prop :=
  ∀ s t : State, step s = .next t → t.bus.units = s.bus.units ∧ t.params = s.params

/-- The invariant of every run is kept by every step: canonical memory (log 13), B = 0 (R33), a legal `TRAP_OPCODE`
(U10). -/
def Obligations.EveryStepKeepsTheInvariant : Prop :=
  ∀ s t : State, s.Inv → step s = .next t → t.Inv

/-- The invariant holds at reset. Its memory and its `TRAP_OPCODE` are the model's choice (log 1, 2, 5). -/
def Obligations.ResetStateMeetsTheInvariant : Prop := State.reset.Inv

/-! ## Reset -/

/-- Reset on any state, with any draws: B, inIRQ and icount are cleared, PC is the word at 0xFFFC, the draws are as drawn,
and memory, devices and parameters are untouched but for the two vector reads (R34, R260). -/
def Obligations.ResetSetsTheCoreState : Prop :=
  ∀ (r : ResetDraws) (s : State),
    let lo := s.bus.read 0xFFFC#16
    let hi := lo.2.read 0xFFFD#16
    s.resetWith r = { s with
      a := r.a, x := r.x, y := r.y, sp := r.sp
      pc := BitVec.ofNat 16 (hi.1.toNat * 256 + lo.1.toNat)
      flags := { c := r.c, z := r.z, i := r.i, d := r.d, b := false, v := r.v, n := r.n }
      inIRQ := false
      icount := 0
      bus := hi.2 }

/-- Two resets with no Step between give the same PC, B, inIRQ and icount, where memory holds the reset vector (R261). -/
def Obligations.ResetAgainGivesTheSameEntry : Prop :=
  ∀ (r q : ResetDraws) (s : State) (lo hi : Byte),
    s.bus.peek 0xFFFC#16 = some lo → s.bus.peek 0xFFFD#16 = some hi →
    ((s.resetWith r).resetWith q).pc = (s.resetWith r).pc ∧ (s.resetWith r).pc = joinBytes hi lo ∧
      ((s.resetWith r).resetWith q) = s.resetWith q

/-! ## The bus -/

/-- A read is serviced by the first device in priority order whose range contains the address, and by no other; if none
does, it gives 0 (R44, R62). -/
def Obligations.ReadIsServicedByTheFirstMatch : Prop :=
  ∀ (a : Addr) (calls : List BusCall) (before after : List Device),
    (∀ d ∈ before, d.contains a = false) →
    (⟨before, calls⟩ : Bus).read a = (0x00#8, ⟨before, calls⟩) ∧
    (∀ d : Device, d.contains a = true → (⟨before ++ d :: after, calls⟩ : Bus).read a =
      ((d.read after.length a calls).1,
        ⟨before ++ (d.read after.length a calls).2.1 :: after, (d.read after.length a calls).2.2⟩))

/-- A write reaches every device whose range contains the address, and no other, and no other byte: a RAM there then holds
the byte, a ROM holds it under `store` and keeps its own under `ignore`, and a peripheral there, shadowed or not, receives
it once, in priority order (R45, R48, R49, D19). What a peripheral received is its history's newest entries (the model's
form, log 9); its device number falls with its priority. -/
def Obligations.WriteReachesEveryMatch : Prop :=
  ∀ (a : Addr) (v : Byte) (b : Bus), b.wf = true →
    (∀ (k : Nat) (d : Device), b.devices[k]? = some d →
      (∀ a', a' ≠ a ∨ d.contains a' = false → (b.write a v).heldBy k a' = d.held a') ∧
      (d.contains a = true → (b.write a v).heldBy k a = match d.kind with
        | .ram _ => some v
        | .rom _ .store => some v
        | .rom m .ignore => some (m.read a.toNat)
        | .peripheral _ => none) ∧
      (d.contains a = false ∨ (∃ p, d.kind = .peripheral p) → (b.write a v).devices[k]? = some d)) ∧
    (∃ received : List BusCall, (b.write a v).calls = received.reverse ++ b.calls ∧
      received.Pairwise (fun earlier later => later.device < earlier.device) ∧
      ∀ e, e ∈ received ↔ ∃ before d after p, b.devices = before ++ d :: after ∧ d.contains a = true ∧
        d.kind = .peripheral p ∧ e = ⟨after.length, .write a v⟩) ∧
    (b.write a v).units = b.units

/-- A device contains an address when `base <= addr <= base + size - 1` on unbounded integers (R46). -/
def Obligations.ContainsIsTheIntegerRange : Prop :=
  ∀ (d : Device) (a : Addr),
    d.contains a = true ↔ (d.base.toNat : Int) ≤ a.toNat ∧ (a.toNat : Int) ≤ d.base.toNat + d.size - 1

/-- A word written is the word read, at every address where a RAM answers for both bytes (R50, R51, R61). -/
def Obligations.WordWrittenIsTheWordRead : Prop :=
  ∀ (a w : Addr) (s : State), s.bus.wf = true → s.bus.ramAt a → s.bus.ramAt (a + 1) →
    ((s.writeWord a w).readWord a).1 = w ∧
    (s.writeWord a w).bus.peek a = some (BitVec.ofNat 8 (w.toNat % 256)) ∧
    (s.writeWord a w).bus.peek (a + 1) = some (BitVec.ofNat 8 (w.toNat / 256))

/-- A byte stored where a RAM answers is the byte the next fetch there gives (R68). -/
def Obligations.StoredByteIsFetched : Prop :=
  ∀ (z lo hi : Byte) (s t : State), ∀ e ∈ codingsSta z lo hi, s.bus.wf = true →
    s.bus.ramAt (effectiveAddr e.form s).1 → exec e.instr s = .next t →
    (State.fetch8 { t with pc := (effectiveAddr e.form s).1 }).1 = s.a

/-- The addresses of the memory forms and the pointer reads they make (R88-R91, R93, R94), and the operand: the immediate
byte with no access, or the byte one read of that address gives, after the pointer reads (R85, R87). -/
def Obligations.EffectiveAddressOfEachForm : Prop :=
  ∀ (z : Byte) (w : Addr) (s : State),
    effectiveAddr (.zp z) s = (BitVec.ofNat 16 z.toNat, s) ∧
    effectiveAddr (.zpX z) s = (BitVec.ofNat 16 ((z.toNat + s.x.toNat) % 256), s) ∧
    effectiveAddr (.zpY z) s = (BitVec.ofNat 16 ((z.toNat + s.y.toNat) % 256), s) ∧
    effectiveAddr (.abs w) s = (w, s) ∧
    effectiveAddr (.absX w) s = (BitVec.ofNat 16 ((w.toNat + s.x.toNat) % 65536), s) ∧
    effectiveAddr (.absY w) s = (BitVec.ofNat 16 ((w.toNat + s.y.toNat) % 65536), s) ∧
    (let p := BitVec.ofNat 16 ((z.toNat + s.x.toNat) % 256)
     let lo := s.bus.read p
     let hi := lo.2.read (p + 1)
     effectiveAddr (.indX z) s = (BitVec.ofNat 16 (hi.1.toNat * 256 + lo.1.toNat), { s with bus := hi.2 })) ∧
    (let p := BitVec.ofNat 16 z.toNat
     let lo := s.bus.read p
     let hi := lo.2.read (p + 1)
     effectiveAddr (.indY z) s =
       (BitVec.ofNat 16 ((hi.1.toNat * 256 + lo.1.toNat + s.y.toNat) % 65536), { s with bus := hi.2 })) ∧
    operand (.imm z) s = (z, s) ∧
    ∀ m : MemForm,
      let ea := effectiveAddr m s
      let r := ea.2.bus.read ea.1
      operand (.mem m) s = (r.1, { s with bus := r.2 })

/-- The accesses of a Step, seen by a peripheral at every address, newest first: the opcode and the operand bytes in address
order, then, from the state after them, pointer low, pointer high, one data read, one data write, each with the byte
read or written, and no dummy access (R65, R98). The accesses of TRAP are in TrapRunsTheCallback, those of BRK and of an
unknown opcode in BrkIsFatal and UnknownOpcodeIsFatal. -/
def Obligations.DataAccessesHappenInOrder : Prop :=
  ∀ (z lo hi : Byte) (w : Addr) (s t : State), OnlyPeripheral s.bus →
    (∀ (n : Nat) (i : Instr), decode s.params.trapOpcode (s.fetchBytes n).1 = .instr i [] →
      let f := s.fetchBytes n
      f.2.bus.calls = fetchEntries s.pc f.1 ++ s.bus.calls ∧ OnlyPeripheral f.2.bus ∧
        (exec i f.2 = .next t → cpuStep s = .next { t with icount := t.icount + 1 })) ∧
    (∀ e ∈ codingsLda z lo hi ++ codingsLdx z lo hi ++ codingsLdy z lo hi ++ codingsAdc z lo hi ++ codingsSbc z lo hi ++
        codingsCmp z lo hi ++ codingsCpx z lo hi ++ codingsCpy z lo hi ++ codingsAnd z lo hi ++ codingsOra z lo hi ++
        codingsEor z lo hi ++ codingsBit z lo hi,
      exec e.instr s = .next t → match e.form with
        | .imm _ => t.bus.calls = s.bus.calls
        | .mem m =>
          let ea := effectiveAddr m s
          t.bus.calls = readEntry ea.1 ea.2.bus :: ea.2.bus.calls) ∧
    (∀ e ∈ codingsSta z lo hi, exec e.instr s = .next t →
      t.bus.calls = ⟨0, .write (effectiveAddr e.form s).1 s.a⟩ :: (effectiveAddr e.form s).2.bus.calls) ∧
    (∀ e ∈ codingsStx z lo hi, exec e.instr s = .next t →
      t.bus.calls = ⟨0, .write (effectiveAddr e.form s).1 s.x⟩ :: (effectiveAddr e.form s).2.bus.calls) ∧
    (∀ e ∈ codingsSty z lo hi, exec e.instr s = .next t →
      t.bus.calls = ⟨0, .write (effectiveAddr e.form s).1 s.y⟩ :: (effectiveAddr e.form s).2.bus.calls) ∧
    (∀ e ∈ codingsInc z lo hi ++ codingsDec z lo hi, exec e.instr s = .next t →
      let ea := effectiveAddr e.form s
      ∃ r, t.bus.calls = ⟨0, .write ea.1 r⟩ :: readEntry ea.1 ea.2.bus :: ea.2.bus.calls) ∧
    (∀ e ∈ codingsAsl z lo hi ++ codingsLsr z lo hi ++ codingsRol z lo hi ++ codingsRor z lo hi,
      exec e.instr s = .next t → match e.form with
        | .acc => t.bus.calls = s.bus.calls
        | .mem m =>
          let ea := effectiveAddr m s
          ∃ r, t.bus.calls = ⟨0, .write ea.1 r⟩ :: readEntry ea.1 ea.2.bus :: ea.2.bus.calls) ∧
    (∀ m : MemForm,
      let pointerReads := fun (p : Addr) =>
        readEntry (p + 1) (s.bus.read p).2 :: readEntry p s.bus :: s.bus.calls
      (effectiveAddr m s).2.bus.calls = match m with
        | .indX b => pointerReads (zext (b + s.x))
        | .indY b => pointerReads (zext b)
        | _ => s.bus.calls) ∧
    (exec (.jmpAbs w) s = .next t → t.bus.calls = s.bus.calls) ∧
    (exec (.jmpInd w) s = .next t →
      t.bus.calls = readEntry (w + 1) (s.bus.read w).2 :: readEntry w s.bus :: s.bus.calls) ∧
    (exec .pha s = .next t → t.bus.calls = ⟨0, .write (stackByte s.sp) s.a⟩ :: s.bus.calls) ∧
    (exec .php s = .next t → t.bus.calls = ⟨0, .write (stackByte s.sp) s.flags.getByte⟩ :: s.bus.calls) ∧
    (∀ i ∈ [Instr.pla, Instr.plp], exec i s = .next t →
      t.bus.calls = readEntry (stackByte (s.sp + 1)) s.bus :: s.bus.calls) ∧
    (exec (.jsr w) s = .next t → t.bus.calls =
      ⟨0, .write (stackByte (s.sp - 1)) (lowByte (s.pc - 1))⟩ :: ⟨0, .write (stackByte s.sp) (highByte (s.pc - 1))⟩ ::
        s.bus.calls) ∧
    (let first := stackByte (s.sp + 1)
     let second := stackByte (s.sp + 2)
     let after := (s.bus.read first).2
     (exec .rts s = .next t →
       t.bus.calls = readEntry second after :: readEntry first s.bus :: s.bus.calls) ∧
     (exec .rti s = .next t →
       t.bus.calls = readEntry (stackByte (s.sp + 3)) (after.read second).2 :: readEntry second after ::
         readEntry first s.bus :: s.bus.calls)) ∧
    (∀ i : Instr, (i.mode = .IMP ∨ i.mode = .REL) →
      i.mnemonic ∉ [.PHA, .PHP, .PLA, .PLP, .RTS, .RTI, .BRK, .TRAP] → exec i s = .next t →
      t.bus.calls = s.bus.calls)

/-! ## Loads and stores -/

/-- LDA, LDX and LDY put the operand byte in their register and update Z and N; nothing else changes but what reading the
operand does to a device (R120-R122). -/
def Obligations.LoadsPutTheOperandInTheRegister : Prop :=
  ∀ (z lo hi : Byte) (s : State),
    (∀ e ∈ codingsLda z lo hi, e.Right ∧ let m := operand e.form s
      exec e.instr s = .next { m.2 with a := m.1, flags := updated m.1 s.flags }) ∧
    (∀ e ∈ codingsLdx z lo hi, e.Right ∧ let m := operand e.form s
      exec e.instr s = .next { m.2 with x := m.1, flags := updated m.1 s.flags }) ∧
    (∀ e ∈ codingsLdy z lo hi, e.Right ∧ let m := operand e.form s
      exec e.instr s = .next { m.2 with y := m.1, flags := updated m.1 s.flags })

/-- STA, STX and STY write their register to the effective address, without reading it first; no flag and no register
changes (R123-R125). -/
def Obligations.StoresWriteTheRegister : Prop :=
  ∀ (z lo hi : Byte) (s : State),
    (∀ e ∈ codingsSta z lo hi, e.Right ∧ let ea := effectiveAddr e.form s
      exec e.instr s = .next { s with bus := ea.2.bus.write ea.1 s.a }) ∧
    (∀ e ∈ codingsStx z lo hi, e.Right ∧ let ea := effectiveAddr e.form s
      exec e.instr s = .next { s with bus := ea.2.bus.write ea.1 s.x }) ∧
    (∀ e ∈ codingsSty z lo hi, e.Right ∧ let ea := effectiveAddr e.form s
      exec e.instr s = .next { s with bus := ea.2.bus.write ea.1 s.y })

/-! ## Arithmetic -/

/-- ADC: A becomes A + m + C modulo 256; C is the unsigned overflow, V the signed overflow of the two's-complement values;
Z and N follow the result; I, D and B stay (R150, R151). -/
def Obligations.AdcAddsWithCarry : Prop :=
  ∀ (z lo hi : Byte) (s : State), ∀ e ∈ codingsAdc z lo hi, e.Right ∧
    let m := operand e.form s
    let sum := s.a.toNat + m.1.toNat + carry s.flags
    let signed : Int := s.a.toInt + m.1.toInt + carry s.flags
    exec e.instr s = .next { m.2 with
      a := BitVec.ofNat 8 (sum % 256)
      flags := updated (BitVec.ofNat 8 (sum % 256)) { s.flags with
        c := decide (sum > 255)
        v := decide (signed < -128 ∨ 127 < signed) } }

/-- SBC: A becomes A - m - (1 - C) modulo 256; C is set when there is no borrow, V is the signed overflow of that
difference; Z and N follow the result; I, D and B stay (R150, R152, C1). -/
def Obligations.SbcSubtractsWithBorrow : Prop :=
  ∀ (z lo hi : Byte) (s : State), ∀ e ∈ codingsSbc z lo hi, e.Right ∧
    let m := operand e.form s
    let difference : Int := s.a.toNat - m.1.toNat - (1 - carry s.flags : Int)
    let signed : Int := s.a.toInt - m.1.toInt - (1 - carry s.flags : Int)
    exec e.instr s = .next { m.2 with
      a := BitVec.ofInt 8 difference
      flags := updated (BitVec.ofInt 8 difference) { s.flags with
        c := decide (0 ≤ difference)
        v := decide (signed < -128 ∨ 127 < signed) } }

/-- CMP, CPX and CPY: C is `register >= operand`, Z is `register == operand`, N is bit 7 of the difference modulo 256;
nothing else changes (R153-R156). -/
def Obligations.ComparesSetCarryZeroNegative : Prop :=
  ∀ (z lo hi : Byte) (s : State),
    let flagsOf := fun (reg m : Byte) => { s.flags with
      c := decide (m.toNat ≤ reg.toNat)
      z := decide (reg.toNat = m.toNat)
      n := decide (128 ≤ (256 + reg.toNat - m.toNat) % 256) }
    (∀ e ∈ codingsCmp z lo hi, e.Right ∧ let m := operand e.form s
      exec e.instr s = .next { m.2 with flags := flagsOf s.a m.1 }) ∧
    (∀ e ∈ codingsCpx z lo hi, e.Right ∧ let m := operand e.form s
      exec e.instr s = .next { m.2 with flags := flagsOf s.x m.1 }) ∧
    (∀ e ∈ codingsCpy z lo hi, e.Right ∧ let m := operand e.form s
      exec e.instr s = .next { m.2 with flags := flagsOf s.y m.1 })

/-- INC and DEC: one read of the effective address, one write of the byte plus or minus 1 modulo 256, Z and N from the
result; C and V stay (R157, R158). -/
def Obligations.IncAndDecModifyMemory : Prop :=
  ∀ (z lo hi : Byte) (s : State),
    let modified := fun (m : MemForm) (f : Byte → Byte) =>
      let ea := effectiveAddr m s
      let v := ea.2.bus.read ea.1
      { s with bus := v.2.write ea.1 (f v.1), flags := updated (f v.1) s.flags }
    (∀ e ∈ codingsInc z lo hi, e.Right ∧
      exec e.instr s = .next (modified e.form fun v => BitVec.ofNat 8 ((v.toNat + 1) % 256))) ∧
    (∀ e ∈ codingsDec z lo hi, e.Right ∧
      exec e.instr s = .next (modified e.form fun v => BitVec.ofNat 8 ((v.toNat + 255) % 256)))

/-- INX, INY, DEX and DEY: the register plus or minus 1 modulo 256, Z and N from the result (R159-R162). -/
def Obligations.IndexRegistersCount : Prop :=
  IsCodedAs [0xE8#8] .inx ∧ IsCodedAs [0xC8#8] .iny ∧ IsCodedAs [0xCA#8] .dex ∧ IsCodedAs [0x88#8] .dey ∧
  ∀ s : State,
    let up := fun (v : Byte) => BitVec.ofNat 8 ((v.toNat + 1) % 256)
    let down := fun (v : Byte) => BitVec.ofNat 8 ((v.toNat + 255) % 256)
    exec .inx s = .next { s with x := up s.x, flags := updated (up s.x) s.flags } ∧
    exec .iny s = .next { s with y := up s.y, flags := updated (up s.y) s.flags } ∧
    exec .dex s = .next { s with x := down s.x, flags := updated (down s.x) s.flags } ∧
    exec .dey s = .next { s with y := down s.y, flags := updated (down s.y) s.flags }

/-! ## Logic and shifts -/

/-- AND, ORA and EOR: each bit of A becomes the operation of that bit of A and of the operand; Z and N from the result;
nothing else changes (R170-R172). -/
def Obligations.LogicalOperationsAreBitwise : Prop :=
  ∀ (z lo hi : Byte) (s : State),
    let does := fun (e : Coding ReadForm) (op : Bool → Bool → Bool) =>
      let m := operand e.form s
      ∃ r : Byte, (∀ j, j < 8 → r.getLsbD j = op (s.a.getLsbD j) (m.1.getLsbD j)) ∧
        exec e.instr s = .next { m.2 with a := r, flags := updated r s.flags }
    (∀ e ∈ codingsAnd z lo hi, e.Right ∧ does e (fun p q => p && q)) ∧
    (∀ e ∈ codingsOra z lo hi, e.Right ∧ does e (fun p q => p || q)) ∧
    (∀ e ∈ codingsEor z lo hi, e.Right ∧ does e (fun p q => xor p q))

/-- BIT: Z is `(A AND m) == 0`, V is bit 6 and N is bit 7 of the operand; A and everything else stay (R173). -/
def Obligations.BitTestsTheOperand : Prop :=
  ∀ (z lo hi : Byte) (s : State), ∀ e ∈ codingsBit z lo hi, e.Right ∧
    let m := operand e.form s
    exec e.instr s = .next { m.2 with flags := { s.flags with
      z := decide (∀ j : Fin 8, ¬ (s.a.getLsbD j = true ∧ m.1.getLsbD j = true))
      v := decide (64 ≤ m.1.toNat % 128)
      n := decide (128 ≤ m.1.toNat) } }

/-- ASL, LSR, ROL and ROR, on A and on memory: the result as a number, the bit shifted out in C, Z and N from the result
(R174-R178). -/
def Obligations.ShiftsAndRotates : Prop :=
  ∀ (z lo hi : Byte) (s : State),
    (∀ e ∈ codingsAsl z lo hi, e.Right ∧ Shifts e.instr e.form s
      (fun v => BitVec.ofNat 8 (2 * v.toNat % 256)) (fun v => decide (128 ≤ v.toNat))) ∧
    (∀ e ∈ codingsLsr z lo hi, e.Right ∧ Shifts e.instr e.form s
      (fun v => BitVec.ofNat 8 (v.toNat / 2)) (fun v => decide (v.toNat % 2 = 1))) ∧
    (∀ e ∈ codingsRol z lo hi, e.Right ∧ Shifts e.instr e.form s
      (fun v => BitVec.ofNat 8 ((2 * v.toNat + carry s.flags) % 256)) (fun v => decide (128 ≤ v.toNat))) ∧
    (∀ e ∈ codingsRor z lo hi, e.Right ∧ Shifts e.instr e.form s
      (fun v => BitVec.ofNat 8 (v.toNat / 2 + 128 * carry s.flags)) (fun v => decide (v.toNat % 2 = 1)))

/-! ## Transfers and the stack -/

/-- The six transfers: TXS writes no flag, the others update from the destination (R130-R135, C4). -/
def Obligations.TransfersCopyOneRegister : Prop :=
  IsCodedAs [0xAA#8] .tax ∧ IsCodedAs [0xA8#8] .tay ∧ IsCodedAs [0x8A#8] .txa ∧ IsCodedAs [0x98#8] .tya ∧
  IsCodedAs [0xBA#8] .tsx ∧ IsCodedAs [0x9A#8] .txs ∧
  ∀ s : State,
    exec .tax s = .next { s with x := s.a, flags := updated s.a s.flags } ∧
    exec .tay s = .next { s with y := s.a, flags := updated s.a s.flags } ∧
    exec .txa s = .next { s with a := s.x, flags := updated s.x s.flags } ∧
    exec .tya s = .next { s with a := s.y, flags := updated s.y s.flags } ∧
    exec .tsx s = .next { s with x := s.sp, flags := updated s.sp s.flags } ∧
    exec .txs s = .next { s with sp := s.x }

/-- PHA and PHP write A or the status byte at 0x0100 + SP and decrement SP modulo 256 (R56, R60, R136, R137). -/
def Obligations.PushesWriteThenDecrement : Prop :=
  IsCodedAs [0x48#8] .pha ∧ IsCodedAs [0x08#8] .php ∧
  ∀ s : State,
    exec .pha s = .next { s with
      bus := s.bus.write (stackByte s.sp) s.a, sp := BitVec.ofNat 8 ((s.sp.toNat + 255) % 256) } ∧
    exec .php s = .next { s with
      bus := s.bus.write (stackByte s.sp) s.flags.getByte, sp := BitVec.ofNat 8 ((s.sp.toNat + 255) % 256) }

/-- PLA and PLP increment SP modulo 256 and read at 0x0100 + SP; PLA updates Z and N, PLP replaces C, Z, I, D, V and N by
bits 0, 1, 2, 3, 6 and 7 (R57, R60, R138, R139). -/
def Obligations.PullsIncrementThenRead : Prop :=
  IsCodedAs [0x68#8] .pla ∧ IsCodedAs [0x28#8] .plp ∧
  ∀ s : State,
    let sp : Byte := BitVec.ofNat 8 ((s.sp.toNat + 1) % 256)
    let p := s.bus.read (stackByte sp)
    exec .pla s = .next { s with bus := p.2, sp := sp, a := p.1, flags := updated p.1 s.flags } ∧
    exec .plp s = .next { s with bus := p.2, sp := sp, flags := { s.flags with
      c := p.1.getLsbD 0, z := p.1.getLsbD 1, i := p.1.getLsbD 2, d := p.1.getLsbD 3
      v := p.1.getLsbD 6, n := p.1.getLsbD 7 } }

/-- The packed status byte bit by bit, its unpacking, and that unpacking it gives the flags back but for B (R30, R31). -/
def Obligations.StatusBytePacksTheFlags : Prop :=
  ∀ f g : Flags,
    f.getByte.getLsbD 0 = f.c ∧ f.getByte.getLsbD 1 = f.z ∧ f.getByte.getLsbD 2 = f.i ∧ f.getByte.getLsbD 3 = f.d ∧
    f.getByte.getLsbD 4 = f.b ∧ f.getByte.getLsbD 5 = true ∧ f.getByte.getLsbD 6 = f.v ∧ f.getByte.getLsbD 7 = f.n ∧
    (∀ p : Byte, g.setByte p = { c := p.getLsbD 0, z := p.getLsbD 1, i := p.getLsbD 2, d := p.getLsbD 3, b := g.b
                                 v := p.getLsbD 6, n := p.getLsbD 7 }) ∧
    g.setByte f.getByte = { f with b := g.b }

/-- PHA, then anything that keeps SP and the pushed byte, then PLA: A and SP are as before the push (R140). -/
def Obligations.PushThenPullRestoresA : Prop :=
  ∀ s t u v : State, s.bus.wf = true → s.bus.ramAt (stackByte s.sp) → exec .pha s = .next t →
    u.sp = t.sp → u.bus.peek (stackByte s.sp) = t.bus.peek (stackByte s.sp) → exec .pla u = .next v →
    v.a = s.a ∧ v.sp = s.sp

/-! ## Control -/

/-- JMP, JSR and RTS: where PC goes, the word JSR pushes (PC - 1, high byte first) and the word RTS pops (low byte first,
plus 1); no flag and no other register changes (R58, R59, R92, R190-R192). -/
def Obligations.JumpsCallsAndReturns : Prop :=
  ∀ (lo hi : Byte) (s : State),
    let w := joinBytes hi lo
    IsCodedAs [0x4C#8, lo, hi] (.jmpAbs w) ∧ IsCodedAs [0x6C#8, lo, hi] (.jmpInd w) ∧
    IsCodedAs [0x20#8, lo, hi] (.jsr w) ∧ IsCodedAs [0x60#8] .rts ∧
    exec (.jmpAbs w) s = .next { s with pc := w } ∧
    (let l := s.bus.read w
     let h := l.2.read (w + 1)
     exec (.jmpInd w) s = .next { s with pc := BitVec.ofNat 16 (h.1.toNat * 256 + l.1.toNat), bus := h.2 }) ∧
    (let back := (s.pc.toNat + 65535) % 65536
     exec (.jsr w) s = .next { s with
       bus := (s.bus.write (stackByte s.sp) (BitVec.ofNat 8 (back / 256))).write (stackByte (s.sp - 1))
         (BitVec.ofNat 8 (back % 256))
       sp := s.sp - 2
       pc := w }) ∧
    (let l := s.bus.read (stackByte (s.sp + 1))
     let h := l.2.read (stackByte (s.sp + 2))
     exec .rts s = .next { s with
       bus := h.2
       sp := s.sp + 2
       pc := BitVec.ofNat 16 ((h.1.toNat * 256 + l.1.toNat + 1) % 65536) })

/-- RTI: the flags from the pulled byte with B forced to 0, PC from the pulled word plus `RTI_PC_BIAS`, the guard cleared
(R31, R195, R196). -/
def Obligations.RtiRestoresFlagsPcAndGuard : Prop :=
  IsCodedAs [0x40#8] .rti ∧
  ∀ s : State,
    let p := s.bus.read (stackByte (s.sp + 1))
    let l := p.2.read (stackByte (s.sp + 2))
    let h := l.2.read (stackByte (s.sp + 3))
    exec .rti s = .next { s with
      bus := h.2
      sp := s.sp + 3
      pc := BitVec.ofNat 16 ((h.1.toNat * 256 + l.1.toNat + bias s.params) % 65536)
      flags := { c := p.1.getLsbD 0, z := p.1.getLsbD 1, i := p.1.getLsbD 2, d := p.1.getLsbD 3, b := false
                 v := p.1.getLsbD 6, n := p.1.getLsbD 7 }
      inIRQ := false }

/-- The eight branches: on their condition PC becomes PC plus the signed offset modulo 65536, else it stays; nothing else
changes (R95, R197-R205). -/
def Obligations.BranchesTestOneFlag : Prop :=
  ∀ (r : Byte) (s : State),
    let goes := fun (op : Byte) (i : Instr) (cond : Prop) => IsCodedAs [op, r] i ∧
      (cond → exec i s = .next { s with pc := BitVec.ofInt 16 (s.pc.toNat + r.toInt) }) ∧
      (¬ cond → exec i s = .next s)
    goes 0x90#8 (.bcc r) (s.flags.c = false) ∧ goes 0xB0#8 (.bcs r) (s.flags.c = true) ∧
    goes 0xF0#8 (.beq r) (s.flags.z = true) ∧ goes 0xD0#8 (.bne r) (s.flags.z = false) ∧
    goes 0x30#8 (.bmi r) (s.flags.n = true) ∧ goes 0x10#8 (.bpl r) (s.flags.n = false) ∧
    goes 0x50#8 (.bvc r) (s.flags.v = false) ∧ goes 0x70#8 (.bvs r) (s.flags.v = true)

/-- JSR then RTS restores PC to the address after the JSR, and SP, whatever the target, where the stack is RAM (R193). -/
def Obligations.JsrThenRtsReturns : Prop :=
  ∀ (w : Addr) (s t u : State), s.bus.wf = true → s.bus.ramAt (stackByte s.sp) → s.bus.ramAt (stackByte (s.sp - 1)) →
    exec (.jsr w) s = .next t → exec .rts t = .next u → t.pc = w ∧ u.pc = s.pc ∧ u.sp = s.sp

/-! ## Flag instructions, NOP, TRAP -/

/-- Each flag instruction sets or clears exactly one flag; NOP does nothing (R210-R217). -/
def Obligations.FlagInstructionsWriteOneFlag : Prop :=
  IsCodedAs [0x18#8] .clc ∧ IsCodedAs [0xD8#8] .cld ∧ IsCodedAs [0x58#8] .cli ∧ IsCodedAs [0xB8#8] .clv ∧
  IsCodedAs [0x38#8] .sec ∧ IsCodedAs [0xF8#8] .sed ∧ IsCodedAs [0x78#8] .sei ∧ IsCodedAs [0xEA#8] .nop ∧
  ∀ s : State,
    exec .clc s = .next { s with flags := { s.flags with c := false } } ∧
    exec .cld s = .next { s with flags := { s.flags with d := false } } ∧
    exec .cli s = .next { s with flags := { s.flags with i := false } } ∧
    exec .clv s = .next { s with flags := { s.flags with v := false } } ∧
    exec .sec s = .next { s with flags := { s.flags with c := true } } ∧
    exec .sed s = .next { s with flags := { s.flags with d := true } } ∧
    exec .sei s = .next { s with flags := { s.flags with i := true } } ∧
    exec .nop s = .next s

/-- TRAP passes A to the callback. If the callback returns, its bus accesses are made in order, it leaves A, X, Y, C, Z, I,
D, V and N as it likes, and PC, SP, B, inIRQ and icount stay (R219, R220). It returns whenever the host has queued no
other response (log 11); one that never returns stops the machine (U11). -/
def Obligations.TrapRunsTheCallback : Prop :=
  (∀ k : Byte, decode k [k] = .instr .trap []) ∧
  (∀ (s : State) (r : TrapReturn), s.trapResponse = .returns r → exec .trap s = .next { s with
    a := r.a, x := r.x, y := r.y
    flags := { c := r.c, z := r.z, i := r.i, d := r.d, b := s.flags.b, v := r.v, n := r.n }
    bus := busAfter r.actions s.bus
    trapQueue := s.trapQueue.tail
    trapCalls := s.a :: s.trapCalls }) ∧
  (∀ s : State, s.trapQueue = [] → ∃ r, s.trapResponse = .returns r) ∧
  (∀ (s : State) (r : TrapCallback) (q : List TrapCallback), s.trapQueue = r :: q → s.trapResponse = r) ∧
  (∀ s : State, s.trapResponse = .neverReturns → exec .trap s = .fault (.trapNeverReturns s.a s))

/-! ## The interrupt -/

/-- Interrupt, called after a Step where a device requests: masked by I or by the guard it changes nothing; else it pushes PC
less the bias (high byte, low byte) and the status byte, sets the guard and loads PC from 0xFFFE; A, X, Y, the flags and
icount stay (R237-R239). -/
def Obligations.InterruptSavesAndVectors : Prop :=
  ∀ s : State,
    (∀ r : State, cpuStep r = .next s → s.bus.poll.1 = true →
      step r = .next (State.interrupt { s with bus := s.bus.poll.2 })) ∧
    (s.flags.i = true ∨ s.inIRQ = true → s.interrupt = s) ∧
    (s.flags.i = false → s.inIRQ = false →
      let back := (s.pc.toNat + 65536 - bias s.params) % 65536
      let b := ((s.bus.write (stackByte s.sp) (BitVec.ofNat 8 (back / 256))).write (stackByte (s.sp - 1))
        (BitVec.ofNat 8 (back % 256))).write (stackByte (s.sp - 2)) s.flags.getByte
      let l := b.read 0xFFFE#16
      let h := l.2.read 0xFFFF#16
      s.interrupt = { s with
        bus := h.2
        sp := s.sp - 3
        pc := BitVec.ofNat 16 (h.1.toNat * 256 + l.1.toNat)
        inIRQ := true })

/-- An interrupt taken at a boundary, a handler that leaves SP and the three stacked bytes as they were, then RTI: PC, the
flags and SP are those of the interrupted boundary, with either `RTI_PC_BIAS`, and the guard is clear (R195, R241). -/
def Obligations.RtiResumesAtTheInterruptedBoundary : Prop :=
  ∀ s u v : State, s.bus.wf = true → s.flags.i = false → s.inIRQ = false → s.flags.b = false →
    s.bus.ramAt (stackByte s.sp) → s.bus.ramAt (stackByte (s.sp - 1)) → s.bus.ramAt (stackByte (s.sp - 2)) →
    u.sp = s.interrupt.sp → u.params = s.params →
    (∀ a ∈ [stackByte s.sp, stackByte (s.sp - 1), stackByte (s.sp - 2)], u.bus.peek a = s.interrupt.bus.peek a) →
    exec .rti u = .next v →
    v.pc = s.pc ∧ v.flags = s.flags ∧ v.sp = s.sp ∧ v.inIRQ = false

/-- After a Step that returned Ok every device is asked, and Interrupt is called exactly when one requests; RAM and ROM never
do; after a fatal error nothing is asked (R72, R244). Asking has no side effect: no byte, no history and no device changes,
but that each peripheral, also after the first that requests, has answered once more (R47; its queue and its count are the
model's index of the oracle, log 10). -/
def Obligations.BoundaryPollsEveryDevice : Prop :=
  (∀ s t : State, cpuStep s = .next t →
    step s = .next (if t.bus.poll.1 = true then State.interrupt { t with bus := t.bus.poll.2 }
      else { t with bus := t.bus.poll.2 })) ∧
  (∀ (s : State) (f : Fault), cpuStep s = .fault f → step s = .fault f) ∧
  (∀ b : Bus, b.poll.1 = true ↔ ∃ before d after p, b.devices = before ++ d :: after ∧ d.kind = .peripheral p ∧
    p.request after.length b.calls = true) ∧
  (∀ b : Bus, (∀ d ∈ b.devices, ∀ p, d.kind ≠ .peripheral p) → b.poll = (false, b)) ∧
  (∀ b : Bus, b.poll.2.calls = b.calls ∧ b.poll.2.units = b.units ∧
    (∀ a, b.poll.2.peek a = b.peek a ∧ ∀ k, b.poll.2.heldBy k a = b.heldBy k a) ∧
    ∀ k : Nat, b.poll.2.devices[k]? = b.devices[k]?.map fun d : Device => match d.kind with
      | .peripheral p => { d with kind := .peripheral { p with irqs := p.irqs.tail, polled := p.polled + 1 } }
      | _ => d)

/-! ## Frames -/

/-- The instructions that read an operand change no byte of memory, no register but their destination, no flag but those of
their rule, and nothing of the system (R120-R122, R151-R156, R170-R173). -/
def Obligations.FrameOfReadingInstructions : Prop :=
  ∀ (z lo hi : Byte) (s t : State),
    let kept := MemoryKeptOutside [] s t ∧ SystemKept s t ∧ t.sp = s.sp ∧ t.pc = s.pc ∧ t.flags.i = s.flags.i ∧
      t.flags.d = s.flags.d ∧ t.flags.b = s.flags.b
    (∀ e ∈ codingsLda z lo hi ++ codingsAnd z lo hi ++ codingsOra z lo hi ++ codingsEor z lo hi,
      exec e.instr s = .next t → kept ∧ t.x = s.x ∧ t.y = s.y ∧ t.flags.c = s.flags.c ∧ t.flags.v = s.flags.v) ∧
    (∀ e ∈ codingsLdx z lo hi,
      exec e.instr s = .next t → kept ∧ t.a = s.a ∧ t.y = s.y ∧ t.flags.c = s.flags.c ∧ t.flags.v = s.flags.v) ∧
    (∀ e ∈ codingsLdy z lo hi,
      exec e.instr s = .next t → kept ∧ t.a = s.a ∧ t.x = s.x ∧ t.flags.c = s.flags.c ∧ t.flags.v = s.flags.v) ∧
    (∀ e ∈ codingsAdc z lo hi ++ codingsSbc z lo hi, exec e.instr s = .next t → kept ∧ t.x = s.x ∧ t.y = s.y) ∧
    (∀ e ∈ codingsCmp z lo hi ++ codingsCpx z lo hi ++ codingsCpy z lo hi,
      exec e.instr s = .next t → kept ∧ RegistersKept s t ∧ t.flags.v = s.flags.v) ∧
    (∀ e ∈ codingsBit z lo hi, exec e.instr s = .next t → kept ∧ RegistersKept s t ∧ t.flags.c = s.flags.c)

/-- The stores and the read-modify-write instructions change no byte of memory but the one at their effective address, no
register, and no flag but those of their rule (R123-R125, R157, R158, R174-R178). -/
def Obligations.FrameOfStoringInstructions : Prop :=
  ∀ (z lo hi : Byte) (s t : State),
    let kept := fun (m : MemForm) =>
      MemoryKeptOutside [(effectiveAddr m s).1] s t ∧ SystemKept s t ∧ RegistersKept s t
    (∀ e ∈ codingsSta z lo hi ++ codingsStx z lo hi ++ codingsSty z lo hi,
      exec e.instr s = .next t → kept e.form ∧ t.flags = s.flags) ∧
    (∀ e ∈ codingsInc z lo hi ++ codingsDec z lo hi, exec e.instr s = .next t → kept e.form ∧
      t.flags = { s.flags with z := t.flags.z, n := t.flags.n }) ∧
    (∀ e ∈ codingsAsl z lo hi ++ codingsLsr z lo hi ++ codingsRol z lo hi ++ codingsRor z lo hi,
      exec e.instr s = .next t → t.flags = { s.flags with c := t.flags.c, z := t.flags.z, n := t.flags.n } ∧
        match e.form with
        | .acc => MemoryKeptOutside [] s t ∧ SystemKept s t ∧ t = { s with a := t.a, flags := t.flags }
        | .mem m => kept m)

/-- The stack instructions change no byte of memory but the stack bytes they push, no register but SP and the pulled A or the
PC they set, and no flag but those pulled (R136-R139, R191, R192, R196). -/
def Obligations.FrameOfStackInstructions : Prop :=
  ∀ (w : Addr) (s t : State),
    (∀ i ∈ [Instr.pha, Instr.php], exec i s = .next t →
      MemoryKeptOutside [stackByte s.sp] s t ∧ SystemKept s t ∧ t = { s with sp := t.sp, bus := t.bus }) ∧
    (exec .pla s = .next t → MemoryKeptOutside [] s t ∧ SystemKept s t ∧
      t = { s with a := t.a, sp := t.sp, bus := t.bus, flags := { s.flags with z := t.flags.z, n := t.flags.n } }) ∧
    (exec .plp s = .next t → MemoryKeptOutside [] s t ∧ SystemKept s t ∧ t.flags.b = s.flags.b ∧
      t = { s with sp := t.sp, bus := t.bus, flags := t.flags }) ∧
    (exec (.jsr w) s = .next t → MemoryKeptOutside [stackByte s.sp, stackByte (s.sp - 1)] s t ∧ SystemKept s t ∧
      t = { s with sp := t.sp, bus := t.bus, pc := t.pc }) ∧
    (exec .rts s = .next t → MemoryKeptOutside [] s t ∧ SystemKept s t ∧
      t = { s with sp := t.sp, bus := t.bus, pc := t.pc }) ∧
    (exec .rti s = .next t → MemoryKeptOutside [] s t ∧ t.bus.units = s.bus.units ∧
      t = { s with sp := t.sp, bus := t.bus, pc := t.pc, flags := t.flags, inIRQ := t.inIRQ })

/-- The instructions that name no memory and no stack leave the bus as it is; each writes at most its own register and flags
(R130-R135, R159-R162, R190, R197, R210-R217). -/
def Obligations.FrameOfRegisterInstructions : Prop :=
  ∀ (r : Byte) (w : Addr) (s t : State),
    let zn := { s.flags with z := t.flags.z, n := t.flags.n }
    (∀ i ∈ [Instr.tax, .tsx, .inx, .dex], exec i s = .next t → t = { s with x := t.x, flags := zn }) ∧
    (∀ i ∈ [Instr.tay, .iny, .dey], exec i s = .next t → t = { s with y := t.y, flags := zn }) ∧
    (∀ i ∈ [Instr.txa, .tya], exec i s = .next t → t = { s with a := t.a, flags := zn }) ∧
    (exec .txs s = .next t → t = { s with sp := t.sp }) ∧
    (∀ i ∈ [Instr.bcc r, .bcs r, .beq r, .bne r, .bmi r, .bpl r, .bvc r, .bvs r, .jmpAbs w], exec i s = .next t →
      t = { s with pc := t.pc }) ∧
    (exec (.jmpInd w) s = .next t → MemoryKeptOutside [] s t ∧ SystemKept s t ∧
      t = { s with pc := t.pc, bus := t.bus }) ∧
    (∀ i ∈ [Instr.clc, .sec], exec i s = .next t → t = { s with flags := { s.flags with c := t.flags.c } }) ∧
    (∀ i ∈ [Instr.cld, .sed], exec i s = .next t → t = { s with flags := { s.flags with d := t.flags.d } }) ∧
    (∀ i ∈ [Instr.cli, .sei], exec i s = .next t → t = { s with flags := { s.flags with i := t.flags.i } }) ∧
    (exec .clv s = .next t → t = { s with flags := { s.flags with v := t.flags.v } }) ∧
    (exec .nop s = .next t → t = s)

/-- TRAP changes no byte of memory but those its callback writes, and no register but A, X and Y (R220). -/
def Obligations.FrameOfTrap : Prop :=
  ∀ (s t : State) (r : TrapReturn), s.trapResponse = .returns r → exec .trap s = .next t →
    (∀ a, (∀ v, BusAction.write a v ∉ r.actions) →
      t.bus.peek a = s.bus.peek a ∧ ∀ k, t.bus.heldBy k a = s.bus.heldBy k a) ∧
    t.bus.units = s.bus.units ∧ t.pc = s.pc ∧ t.sp = s.sp ∧ t.flags.b = s.flags.b ∧ t.inIRQ = s.inIRQ ∧
    t.icount = s.icount ∧ t.params = s.params

/-! ## Host operations -/

/-- A missing ROM image and one larger than its device are launch errors, and another is held verbatim from the device's base
on (R49, R265, U19). Boot refuses an illegal `TRAP_OPCODE`; a launch error of any device ends it before anything runs;
otherwise, over well-formed devices, it leaves a state with the invariant, these devices in last-mapped-first order and
these parameters, whatever the patches and the undefined reset values, and without patches every device holds what it
held when mapped (R264-R266; that boot is where the launch is refused is log 19). -/
def Obligations.BootEstablishesTheInvariant : Prop :=
  (∀ (base : Addr) (size : Nat) (policy : RomWritePolicy),
    loadRom base size policy none = .error .missingImage ∧
    ∀ image : List Byte,
      (size < image.length → loadRom base size policy (some image) = .error .imageTooLarge) ∧
      (image.length ≤ size → ∃ d, loadRom base size policy (some image) = .ok d ∧ d.wf = true ∧
        d.unit = (base, size, .rom policy) ∧
        ∀ (j : Nat) (v : Byte) (a : Addr), image[j]? = some v → a.toNat = base.toNat + j →
          d.contains a = true ∧ d.held a = some v)) ∧
  ∀ (p : Params) (queue : List TrapCallback) (devices : List (Except LaunchError Device))
    (patches : List (Addr × List Byte)) (draws : ResetDraws),
    let booted := boot p queue devices patches draws
    (p.wellFormed = false → booted = .error .illegalTrapOpcode) ∧
    (p.wellFormed = true → (∃ e, .error e ∈ devices) → ∃ e, .error e ∈ devices ∧ booted = .error e) ∧
    (p.wellFormed = true → ∀ mapped : List Device, devices = mapped.map .ok → (∀ d ∈ mapped, d.wf = true) →
      ∃ s, booted = .ok s ∧ s.Inv ∧ s.params = p ∧ s.bus.units = (mapped.map Device.unit).reverse ∧
        (patches = [] → ∀ (k : Nat) (a : Addr), s.bus.heldBy k a = mapped.reverse[k]?.bind fun d => d.held a))

/-- The vector patch makes its bytes what later reads of the target and the addresses after it give, in RAM and in ROM of
either write policy, and changes no other byte and no register (R266, D32). -/
def Obligations.VectorPatchIsWhatReadsGive : Prop :=
  ∀ (vector : Addr) (bytes : List Byte) (s : State), s.bus.wf = true → bytes.length ≤ 65536 →
    let target := (s.readWord (vector + 1)).1
    let t := s.vectorPatch vector bytes
    (∀ (j : Nat) (v : Byte) (d : Device), bytes[j]? = some v →
      s.bus.answering (target + BitVec.ofNat 16 j) = some d → (∀ p, d.kind ≠ .peripheral p) →
      t.bus.peek (target + BitVec.ofNat 16 j) = some v) ∧
    (∀ a, (∀ j, j < bytes.length → a ≠ target + BitVec.ofNat 16 j) → t.bus.peek a = s.bus.peek a) ∧
    t = { s with bus := t.bus }

/-- A run ends at a stop address, checked before the Step, and stops at a fatal error, which is no end (R233, R245). -/
def Obligations.RunEndsAtStopAddresses : Prop :=
  ∀ (n : Nat) (s : State),
    (s.pc ∈ s.params.stopPcs → hostLoop n s = .ended s) ∧
    (s.pc ∉ s.params.stopPcs → ∀ f, step s = .fault f → hostLoop (n + 1) s = .faulted f) ∧
    (s.pc ∉ s.params.stopPcs → ∀ t, step s = .next t → hostLoop (n + 1) s = hostLoop n t)
end

