-- ==== Sys2Proof/Laws/Memory.lean ====
section
/-! SUPPORT. The laws of the bytes a RAM or a ROM holds: a read after a write, and that a write keeps the canonical
form. -/

namespace Sys2Proof.Machine

@[simp] theorem Memory.read_nil (a : Nat) : Memory.read a [] = Config.unwrittenByte := rfl

theorem Memory.read_cons (a k : Nat) (w : Byte) (m : Memory) :
    Memory.read a ((k, w) :: m) = if k = a then w else Memory.read a m := rfl

theorem Memory.wfIn_cons {lo hi k : Nat} {w : Byte} {m : Memory} :
    Memory.wfIn lo hi ((k, w) :: m) = true ↔
      lo ≤ k ∧ k < hi ∧ w ≠ Config.unwrittenByte ∧ Memory.wfIn (k + 1) hi m = true := by
  simp [Memory.wfIn, and_assoc]

theorem Memory.wfIn_lower {lo lo' hi : Nat} (m : Memory) (h : m.wfIn lo' hi = true) (hl : lo ≤ lo') :
    m.wfIn lo hi = true := by
  cases m with
  | nil => rfl
  | cons c m =>
    obtain ⟨k, w⟩ := c
    rw [Memory.wfIn_cons] at h ⊢
    exact ⟨by omega, h.2⟩

theorem Memory.wfIn_upper {lo hi hi' : Nat} (m : Memory) (h : m.wfIn lo hi = true) (hl : hi ≤ hi') :
    m.wfIn lo hi' = true := by
  induction m generalizing lo with
  | nil => rfl
  | cons c m ih =>
    obtain ⟨k, w⟩ := c
    rw [Memory.wfIn_cons] at h ⊢
    exact ⟨h.1, by omega, h.2.2.1, ih h.2.2.2⟩

/-- Below its least address a canonical memory holds nothing. -/
theorem Memory.read_below {lo hi a : Nat} (m : Memory) (h : m.wfIn lo hi = true) (ha : a < lo) :
    m.read a = Config.unwrittenByte := by
  induction m generalizing lo with
  | nil => rfl
  | cons c m ih =>
    obtain ⟨k, w⟩ := c
    rw [Memory.wfIn_cons] at h
    rw [Memory.read_cons, if_neg (by omega)]
    exact ih h.2.2.2 (by omega)

/-- A write keeps the canonical form. -/
theorem Memory.write_wfIn {lo hi a : Nat} (v : Byte) (m : Memory) (h : m.wfIn lo hi = true) (hlo : lo ≤ a)
    (hhi : a < hi) : (m.write a v).wfIn lo hi = true := by
  induction m generalizing lo with
  | nil => by_cases hv : v = Config.unwrittenByte <;> simp [Memory.write, Memory.wfIn, hv, hlo, hhi]
  | cons c m ih =>
    obtain ⟨k, w⟩ := c
    have h' := Memory.wfIn_cons.mp h
    rw [Memory.write]
    split
    · split
      · exact h
      · rw [Memory.wfIn_cons, Memory.wfIn_cons]
        exact ⟨hlo, hhi, by assumption, by omega, h'.2⟩
    · split
      · split
        · exact Memory.wfIn_lower m h'.2.2.2 (by omega)
        · rw [Memory.wfIn_cons]
          exact ⟨hlo, hhi, by assumption, by subst a; exact h'.2.2.2⟩
      · rw [Memory.wfIn_cons]
        exact ⟨h'.1, h'.2.1, h'.2.2.1, ih h'.2.2.2 (by omega)⟩

/-- A write leaves every other address alone. -/
theorem Memory.read_write_other {a b : Nat} (v : Byte) (m : Memory) (h : b ≠ a) :
    (m.write a v).read b = m.read b := by
  induction m with
  | nil =>
    rw [Memory.write]
    split
    · rfl
    · rw [Memory.read_cons, if_neg (Ne.symm h)]
  | cons c m ih =>
    obtain ⟨k, w⟩ := c
    rw [Memory.write]
    split
    · split
      · rfl
      · rw [Memory.read_cons, if_neg (Ne.symm h)]
    · split
      · subst k
        split
        · rw [Memory.read_cons, if_neg (Ne.symm h)]
        · rw [Memory.read_cons, if_neg (Ne.symm h), Memory.read_cons, if_neg (Ne.symm h)]
      · rw [Memory.read_cons, ih, Memory.read_cons]

/-- In canonical form, a read after a write to the same address gives the value written. -/
theorem Memory.read_write_same {lo hi a : Nat} (v : Byte) (m : Memory) (h : m.wfIn lo hi = true) :
    (m.write a v).read a = v := by
  induction m generalizing lo with
  | nil => by_cases hv : v = Config.unwrittenByte <;> simp [Memory.write, Memory.read, hv]
  | cons c m ih =>
    obtain ⟨k, w⟩ := c
    have h' := Memory.wfIn_cons.mp h
    rw [Memory.write]
    split
    · split
      · rw [Memory.read_cons, if_neg (by omega), Memory.read_below m h'.2.2.2 (by omega)]
        exact Eq.symm (by assumption)
      · rw [Memory.read_cons, if_pos rfl]
    · split
      · split
        · rw [Memory.read_below m h'.2.2.2 (by omega)]
          exact Eq.symm (by assumption)
        · rw [Memory.read_cons, if_pos rfl]
      · rw [Memory.read_cons, if_neg (by omega), ih h'.2.2.2]

end Sys2Proof.Machine
end

