-- ==== Sys2Proof/Laws/Bus.lean ====
section
/-! SUPPORT. Once for all of the bus: what any sequence of accesses that writes only at the addresses `L` leaves of it
(`Bus.Keeps`), and what a read of memory and a read after a write give. -/

namespace Sys2Proof.Machine

/-- `e` is the device `d` after accesses that wrote to it only at addresses in `L`. -/
structure Device.Keeps (L : Addr → Prop) (d e : Device) : Prop where
  unit : e.unit = d.unit
  wf : d.wf = true → e.wf = true
  held : ∀ a, ¬ L a → e.held a = d.held a

/-- `c` is the bus `b` after accesses that wrote only at addresses in `L`. -/
def Bus.Keeps (L : Addr → Prop) (b c : Bus) : Prop := List.Forall₂ (Device.Keeps L) b.devices c.devices

theorem Device.Keeps.refl (L : Addr → Prop) (d : Device) : Device.Keeps L d d := ⟨rfl, id, fun _ _ => rfl⟩

theorem Device.Keeps.trans {L : Addr → Prop} {d e f : Device} (h : Device.Keeps L d e) (g : Device.Keeps L e f) :
    Device.Keeps L d f :=
  ⟨g.unit.trans h.unit, fun w => g.wf (h.wf w), fun a ha => (g.held a ha).trans (h.held a ha)⟩

theorem Device.Keeps.mono {L M : Addr → Prop} {d e : Device} (h : Device.Keeps L d e) (hLM : ∀ a, L a → M a) :
    Device.Keeps M d e := ⟨h.unit, h.wf, fun a ha => h.held a (fun hl => ha (hLM a hl))⟩

theorem Device.contains_unit {d e : Device} (h : e.unit = d.unit) (a : Addr) : e.contains a = d.contains a := by
  have hb : e.base = d.base := congrArg Prod.fst h
  have hs : e.size = d.size := congrArg (fun u => u.2.1) h
  simp [Device.contains, hb, hs]

theorem Bus.Keeps.refl (L : Addr → Prop) (b : Bus) : Bus.Keeps L b b :=
  List.forall₂_same.mpr fun d _ => Device.Keeps.refl L d

theorem keepsDevices_trans {L : Addr → Prop} : ∀ {l m n : List Device}, List.Forall₂ (Device.Keeps L) l m →
    List.Forall₂ (Device.Keeps L) m n → List.Forall₂ (Device.Keeps L) l n
  | _, _, _, .nil, .nil => .nil
  | _, _, _, .cons h hs, .cons g gs => .cons (h.trans g) (keepsDevices_trans hs gs)

theorem Bus.Keeps.trans {L : Addr → Prop} {b c d : Bus} (h : Bus.Keeps L b c) (g : Bus.Keeps L c d) :
    Bus.Keeps L b d := keepsDevices_trans h g

theorem Bus.Keeps.mono {L M : Addr → Prop} {b c : Bus} (h : Bus.Keeps L b c) (hLM : ∀ a, L a → M a) :
    Bus.Keeps M b c := List.Forall₂.imp (fun _ _ k => k.mono hLM) h

/-! ## What `Keeps` gives -/

theorem Bus.Keeps.units {L : Addr → Prop} {b c : Bus} (h : Bus.Keeps L b c) : c.units = b.units := by
  obtain ⟨l, k⟩ := b
  obtain ⟨m, k'⟩ := c
  change List.Forall₂ (Device.Keeps L) l m at h
  change m.map Device.unit = l.map Device.unit
  induction h with
  | nil => rfl
  | cons h _ ih => simp [h.unit, ih]

theorem Bus.Keeps.wf {L : Addr → Prop} {b c : Bus} (h : Bus.Keeps L b c) (hb : b.wf = true) : c.wf = true := by
  obtain ⟨l, k⟩ := b
  obtain ⟨m, k'⟩ := c
  change List.Forall₂ (Device.Keeps L) l m at h
  change l.all Device.wf = true at hb
  change m.all Device.wf = true
  induction h with
  | nil => rfl
  | cons h _ ih =>
    simp only [List.all_cons, Bool.and_eq_true] at hb ⊢
    exact ⟨h.wf hb.1, ih hb.2⟩

theorem Bus.Keeps.heldBy {L : Addr → Prop} {b c : Bus} (h : Bus.Keeps L b c) {a : Addr} (ha : ¬ L a) (k : Nat) :
    c.heldBy k a = b.heldBy k a := by
  obtain ⟨l, _⟩ := b
  obtain ⟨m, _⟩ := c
  change List.Forall₂ (Device.Keeps L) l m at h
  change (m[k]?.bind fun d => d.held a) = (l[k]?.bind fun d => d.held a)
  induction h generalizing k with
  | nil => rfl
  | cons h _ ih =>
    cases k with
    | zero => simp [h.held a ha]
    | succ k => simpa using ih k

theorem Bus.Keeps.answering {L : Addr → Prop} {b c : Bus} (h : Bus.Keeps L b c) (a : Addr) :
    Option.Rel (Device.Keeps L) (b.answering a) (c.answering a) := by
  obtain ⟨l, _⟩ := b
  obtain ⟨m, _⟩ := c
  change List.Forall₂ (Device.Keeps L) l m at h
  change Option.Rel _ (l.find? _) (m.find? _)
  induction h with
  | nil => exact .none
  | @cons d e _ _ h _ ih =>
    simp only [List.find?_cons, Device.contains_unit h.unit]
    cases d.contains a with
    | false => exact ih
    | true => exact .some h

theorem Bus.Keeps.peek {L : Addr → Prop} {b c : Bus} (h : Bus.Keeps L b c) {a : Addr} (ha : ¬ L a) :
    c.peek a = b.peek a := by
  have r := h.answering a
  unfold Bus.peek
  cases hb : b.answering a <;> cases hc : c.answering a <;> rw [hb, hc] at r <;> cases r
  rename_i k
  exact k.held a ha

theorem Bus.Keeps.ramAt {L : Addr → Prop} {b c : Bus} (h : Bus.Keeps L b c) {a : Addr} (ha : b.ramAt a) :
    c.ramAt a := by
  obtain ⟨base, size, m, hm⟩ := ha
  have r := h.answering a
  rw [hm] at r
  cases hc : c.answering a with
  | none => rw [hc] at r; cases r
  | some e =>
    rw [hc] at r
    cases r with
    | some k =>
      have hu := k.unit
      obtain ⟨eb, es, ek⟩ := e
      cases ek with
      | ram m' => exact ⟨eb, es, m', by rw [hc]⟩
      | rom m' p => simp [Device.unit] at hu
      | peripheral p => simp [Device.unit] at hu

/-! ## The accesses keep the bus -/

theorem Device.read_keeps (L : Addr → Prop) (n : Nat) (a : Addr) (calls : List BusCall) (d : Device) :
    Device.Keeps L d (d.read n a calls).2.1 := by
  obtain ⟨base, size, kind⟩ := d
  cases kind with
  | ram m => exact .refl L _
  | rom m p => exact .refl L _
  | peripheral p => exact ⟨rfl, id, fun _ _ => rfl⟩

theorem Device.poll_keeps (L : Addr → Prop) (n : Nat) (calls : List BusCall) (d : Device) :
    Device.Keeps L d (d.poll n calls).2 := by
  obtain ⟨base, size, kind⟩ := d
  cases kind with
  | ram m => exact .refl L _
  | rom m p => exact .refl L _
  | peripheral p => exact ⟨rfl, id, fun _ _ => rfl⟩

/-- A write of a byte in a device's range keeps the bytes it holds in canonical form and in its range. -/
theorem Memory.write_deviceWf {base : Addr} {size : Nat} {a : Addr} {m : Memory} (v : Byte)
    (hc : base.toNat ≤ a.toNat ∧ a.toNat < base.toNat + size)
    (h : m.wf = true ∧ m.wfIn base.toNat (base.toNat + size) = true) :
    (m.write a.toNat v).wf = true ∧ (m.write a.toNat v).wfIn base.toNat (base.toNat + size) = true :=
  ⟨Memory.write_wfIn v m h.1 (Nat.zero_le _) a.isLt, Memory.write_wfIn v m h.2 hc.1 hc.2⟩

theorem Device.contains_iff (d : Device) (a : Addr) :
    d.contains a = true ↔ d.base.toNat ≤ a.toNat ∧ a.toNat < d.base.toNat + d.size := by
  simp [Device.contains]

theorem Device.write_keeps (n : Nat) (a : Addr) (v : Byte) (calls : List BusCall) (d : Device)
    (hc : d.contains a = true) : Device.Keeps (· = a) d (d.write n a v calls).1 := by
  rw [Device.contains_iff] at hc
  obtain ⟨base, size, kind⟩ := d
  have other : ∀ (m : Memory) (k : Addr), ¬ k = a → (m.write a.toNat v).read k.toNat = m.read k.toNat :=
    fun m k hk => Memory.read_write_other v m (fun e => hk (BitVec.eq_of_toNat_eq e))
  cases kind with
  | ram m =>
    refine ⟨rfl, fun h => ?_, fun k hk => congrArg some (other m k hk)⟩
    simp only [Device.wf, Bool.and_eq_true] at h
    simpa [Device.wf, Device.write] using Memory.write_deviceWf v hc h
  | rom m p =>
    cases p with
    | ignore => exact .refl _ _
    | store =>
      refine ⟨rfl, fun h => ?_, fun k hk => congrArg some (other m k hk)⟩
      simp only [Device.wf, Bool.and_eq_true] at h
      simpa [Device.wf, Device.write] using Memory.write_deviceWf v hc h
  | peripheral p => exact .refl _ _

theorem readDevices_keeps (L : Addr → Prop) (a : Addr) (calls : List BusCall) (ds : List Device) :
    List.Forall₂ (Device.Keeps L) ds (readDevices a calls ds).2.1 := by
  induction ds with
  | nil => exact .nil
  | cons d ds ih =>
    rw [readDevices]
    split
    · exact .cons (d.read_keeps L _ a calls) (List.forall₂_same.mpr fun e _ => .refl L e)
    · exact .cons (.refl L d) ih

theorem writeDevices_keeps (a : Addr) (v : Byte) (calls : List BusCall) (ds : List Device) :
    List.Forall₂ (Device.Keeps (· = a)) ds (writeDevices a v calls ds).1 := by
  induction ds generalizing calls with
  | nil => exact .nil
  | cons d ds ih =>
    rw [writeDevices]
    split
    · exact .cons (d.write_keeps _ a v calls (by assumption)) (ih _)
    · exact .cons (.refl _ d) (ih _)

theorem pollDevices_keeps (L : Addr → Prop) (calls : List BusCall) (ds : List Device) :
    List.Forall₂ (Device.Keeps L) ds (pollDevices calls ds).2 := by
  induction ds with
  | nil => exact .nil
  | cons d ds ih => exact .cons (d.poll_keeps L _ calls) ih

theorem Bus.read_keeps (L : Addr → Prop) (a : Addr) (b : Bus) : Bus.Keeps L b (b.read a).2 :=
  readDevices_keeps L a b.calls b.devices

theorem Bus.write_keeps (a : Addr) (v : Byte) (b : Bus) : Bus.Keeps (· = a) b (b.write a v) :=
  writeDevices_keeps a v b.calls b.devices

theorem Bus.poll_keeps (L : Addr → Prop) (b : Bus) : Bus.Keeps L b b.poll.2 :=
  pollDevices_keeps L b.calls b.devices

/-! ## Values read -/

theorem readDevices_of_find {a : Addr} {calls : List BusCall} {v : Byte} : ∀ {ds : List Device},
    (match ds.find? (fun d => d.contains a) with
      | some d => d.held a
      | none => some Config.openBusByte) = some v →
    readDevices a calls ds = (v, ds, calls)
  | [], h => by cases h; rfl
  | d :: ds, h => by
    rw [readDevices]
    rw [List.find?_cons] at h
    cases hc : d.contains a with
    | false =>
      rw [hc] at h
      simp [readDevices_of_find h]
    | true =>
      rw [hc] at h
      obtain ⟨base, size, kind⟩ := d
      cases kind with
      | ram m => simp [Device.held] at h; simp [Device.read, h]
      | rom m p => simp [Device.held] at h; simp [Device.read, h]
      | peripheral p => simp [Device.held] at h

/-- A read that memory or the open bus answers gives what `peek` shows, and changes nothing (R44, R62, R71). -/
theorem Bus.read_of_peek {b : Bus} {a : Addr} {v : Byte} (h : b.peek a = some v) : b.read a = (v, b) := by
  have := readDevices_of_find (calls := b.calls) (ds := b.devices) h
  simp [Bus.read, this]

theorem writeDevices_find {a : Addr} (v : Byte) {base : Addr} {size : Nat} {m : Memory} :
    ∀ {ds : List Device} (calls : List BusCall),
      ds.find? (fun d => d.contains a) = some ⟨base, size, .ram m⟩ →
      (writeDevices a v calls ds).1.find? (fun d => d.contains a) = some ⟨base, size, .ram (m.write a.toNat v)⟩
  | [], _, h => by cases h
  | d :: ds, calls, h => by
    rw [List.find?_cons] at h
    cases hc : d.contains a with
    | false =>
      rw [hc] at h
      simp [writeDevices, hc, writeDevices_find v calls h]
    | true =>
      rw [hc] at h
      cases h
      have hc' : (⟨base, size, .ram (m.write a.toNat v)⟩ : Device).contains a = true := hc
      simp [writeDevices, hc, Device.write, hc']

theorem mem_of_answering {b : Bus} {a : Addr} {d : Device} (h : b.answering a = some d) : d ∈ b.devices :=
  List.mem_of_find?_eq_some h

/-- Where a RAM answers, a byte written is the byte read (R48, R63). -/
theorem Bus.peek_write_same {b : Bus} {a : Addr} (v : Byte) (hw : b.wf = true) (h : b.ramAt a) :
    (b.write a v).peek a = some v := by
  obtain ⟨base, size, m, hm⟩ := h
  have hd : Device.wf ⟨base, size, .ram m⟩ = true := List.all_eq_true.mp hw _ (mem_of_answering hm)
  simp only [Device.wf, Bool.and_eq_true] at hd
  have hf := writeDevices_find v b.calls hm
  have he : (b.write a v).answering a = some ⟨base, size, .ram (m.write a.toNat v)⟩ := hf
  simp [Bus.peek, he, Device.held, Memory.read_write_same v m hd.1]

/-- A write leaves what every other address reads as alone. -/
theorem Bus.peek_write_other {b : Bus} {a k : Addr} (v : Byte) (h : k ≠ a) : (b.write a v).peek k = b.peek k :=
  (b.write_keeps a v).peek h

/-! ## What one access or one poll does, device by device -/

/-- What a write does to each device: those that contain the address take it, and no device depends on another. -/
theorem writeDevices_getElem? (a : Addr) (v : Byte) (calls : List BusCall) (ds : List Device) (k : Nat) :
    (writeDevices a v calls ds).1[k]? = ds[k]?.map fun d => if d.contains a then (d.write 0 a v []).1 else d := by
  induction ds generalizing calls k with
  | nil => rfl
  | cons d ds ih =>
    cases k with
    | zero =>
      simp only [writeDevices, List.getElem?_cons_zero, Option.map_some]
      split
      · congr 1
        unfold Device.write
        split <;> rfl
      · rfl
    | succ k => simpa only [writeDevices, List.getElem?_cons_succ] using ih _ k

/-- What a poll does to each device: every peripheral has been asked once more, and nothing else has changed. -/
theorem pollDevices_getElem? (calls : List BusCall) (ds : List Device) (k : Nat) :
    (pollDevices calls ds).2[k]? = ds[k]?.map fun d => (d.poll 0 calls).2 := by
  induction ds generalizing k with
  | nil => rfl
  | cons d ds ih =>
    cases k with
    | zero =>
      simp only [pollDevices, List.getElem?_cons_zero, Option.map_some]
      congr 1
      unfold Device.poll
      split <;> rfl
    | succ k => simpa only [pollDevices, List.getElem?_cons_succ] using ih k

/-- Where a RAM answers, something is there to be read. -/
theorem Bus.ramAt.peek {b : Bus} {a : Addr} (h : b.ramAt a) : ∃ v, b.peek a = some v := by
  obtain ⟨base, size, m, hm⟩ := h
  exact ⟨m.read a.toNat, by simp [Bus.peek, hm, Device.held]⟩

end Sys2Proof.Machine
end

