-- ==== Sys2Proof/Laws/State.lean ====
section
/-! SUPPORT. What each update of the state leaves alone: one lemma per field per update, so that no later proof unfolds
a record update. -/

namespace Sys2Proof.Machine

/-! ### `Update` -/

@[simp] theorem State.update_a (v : Byte) (s : State) : (s.update v).a = s.a := rfl
@[simp] theorem State.update_x (v : Byte) (s : State) : (s.update v).x = s.x := rfl
@[simp] theorem State.update_y (v : Byte) (s : State) : (s.update v).y = s.y := rfl
@[simp] theorem State.update_sp (v : Byte) (s : State) : (s.update v).sp = s.sp := rfl
@[simp] theorem State.update_pc (v : Byte) (s : State) : (s.update v).pc = s.pc := rfl
@[simp] theorem State.update_flags (v : Byte) (s : State) : (s.update v).flags = s.flags.update v := rfl
@[simp] theorem State.update_inIRQ (v : Byte) (s : State) : (s.update v).inIRQ = s.inIRQ := rfl
@[simp] theorem State.update_icount (v : Byte) (s : State) : (s.update v).icount = s.icount := rfl
@[simp] theorem State.update_params (v : Byte) (s : State) : (s.update v).params = s.params := rfl
@[simp] theorem State.update_trapQueue (v : Byte) (s : State) : (s.update v).trapQueue = s.trapQueue := rfl
@[simp] theorem State.update_trapCalls (v : Byte) (s : State) : (s.update v).trapCalls = s.trapCalls := rfl
@[simp] theorem State.update_bus (v : Byte) (s : State) : (s.update v).bus = s.bus := rfl

/-! ### `A <- v; Update(A)` -/

@[simp] theorem State.setA_a (v : Byte) (s : State) : (s.setA v).a = v := rfl
@[simp] theorem State.setA_x (v : Byte) (s : State) : (s.setA v).x = s.x := rfl
@[simp] theorem State.setA_y (v : Byte) (s : State) : (s.setA v).y = s.y := rfl
@[simp] theorem State.setA_sp (v : Byte) (s : State) : (s.setA v).sp = s.sp := rfl
@[simp] theorem State.setA_pc (v : Byte) (s : State) : (s.setA v).pc = s.pc := rfl
@[simp] theorem State.setA_flags (v : Byte) (s : State) : (s.setA v).flags = s.flags.update v := rfl
@[simp] theorem State.setA_inIRQ (v : Byte) (s : State) : (s.setA v).inIRQ = s.inIRQ := rfl
@[simp] theorem State.setA_icount (v : Byte) (s : State) : (s.setA v).icount = s.icount := rfl
@[simp] theorem State.setA_params (v : Byte) (s : State) : (s.setA v).params = s.params := rfl
@[simp] theorem State.setA_trapQueue (v : Byte) (s : State) : (s.setA v).trapQueue = s.trapQueue := rfl
@[simp] theorem State.setA_trapCalls (v : Byte) (s : State) : (s.setA v).trapCalls = s.trapCalls := rfl
@[simp] theorem State.setA_bus (v : Byte) (s : State) : (s.setA v).bus = s.bus := rfl

/-! ### `X <- v; Update(X)` -/

@[simp] theorem State.setX_a (v : Byte) (s : State) : (s.setX v).a = s.a := rfl
@[simp] theorem State.setX_x (v : Byte) (s : State) : (s.setX v).x = v := rfl
@[simp] theorem State.setX_y (v : Byte) (s : State) : (s.setX v).y = s.y := rfl
@[simp] theorem State.setX_sp (v : Byte) (s : State) : (s.setX v).sp = s.sp := rfl
@[simp] theorem State.setX_pc (v : Byte) (s : State) : (s.setX v).pc = s.pc := rfl
@[simp] theorem State.setX_flags (v : Byte) (s : State) : (s.setX v).flags = s.flags.update v := rfl
@[simp] theorem State.setX_inIRQ (v : Byte) (s : State) : (s.setX v).inIRQ = s.inIRQ := rfl
@[simp] theorem State.setX_icount (v : Byte) (s : State) : (s.setX v).icount = s.icount := rfl
@[simp] theorem State.setX_params (v : Byte) (s : State) : (s.setX v).params = s.params := rfl
@[simp] theorem State.setX_trapQueue (v : Byte) (s : State) : (s.setX v).trapQueue = s.trapQueue := rfl
@[simp] theorem State.setX_trapCalls (v : Byte) (s : State) : (s.setX v).trapCalls = s.trapCalls := rfl
@[simp] theorem State.setX_bus (v : Byte) (s : State) : (s.setX v).bus = s.bus := rfl

/-! ### `Y <- v; Update(Y)` -/

@[simp] theorem State.setY_a (v : Byte) (s : State) : (s.setY v).a = s.a := rfl
@[simp] theorem State.setY_x (v : Byte) (s : State) : (s.setY v).x = s.x := rfl
@[simp] theorem State.setY_y (v : Byte) (s : State) : (s.setY v).y = v := rfl
@[simp] theorem State.setY_sp (v : Byte) (s : State) : (s.setY v).sp = s.sp := rfl
@[simp] theorem State.setY_pc (v : Byte) (s : State) : (s.setY v).pc = s.pc := rfl
@[simp] theorem State.setY_flags (v : Byte) (s : State) : (s.setY v).flags = s.flags.update v := rfl
@[simp] theorem State.setY_inIRQ (v : Byte) (s : State) : (s.setY v).inIRQ = s.inIRQ := rfl
@[simp] theorem State.setY_icount (v : Byte) (s : State) : (s.setY v).icount = s.icount := rfl
@[simp] theorem State.setY_params (v : Byte) (s : State) : (s.setY v).params = s.params := rfl
@[simp] theorem State.setY_trapQueue (v : Byte) (s : State) : (s.setY v).trapQueue = s.trapQueue := rfl
@[simp] theorem State.setY_trapCalls (v : Byte) (s : State) : (s.setY v).trapCalls = s.trapCalls := rfl
@[simp] theorem State.setY_bus (v : Byte) (s : State) : (s.setY v).bus = s.bus := rfl

/-! ### byte reads -/

@[simp] theorem State.readByte_a (k : Addr) (s : State) : (s.readByte k).2.a = s.a := rfl
@[simp] theorem State.readByte_x (k : Addr) (s : State) : (s.readByte k).2.x = s.x := rfl
@[simp] theorem State.readByte_y (k : Addr) (s : State) : (s.readByte k).2.y = s.y := rfl
@[simp] theorem State.readByte_sp (k : Addr) (s : State) : (s.readByte k).2.sp = s.sp := rfl
@[simp] theorem State.readByte_pc (k : Addr) (s : State) : (s.readByte k).2.pc = s.pc := rfl
@[simp] theorem State.readByte_flags (k : Addr) (s : State) : (s.readByte k).2.flags = s.flags := rfl
@[simp] theorem State.readByte_inIRQ (k : Addr) (s : State) : (s.readByte k).2.inIRQ = s.inIRQ := rfl
@[simp] theorem State.readByte_icount (k : Addr) (s : State) : (s.readByte k).2.icount = s.icount := rfl
@[simp] theorem State.readByte_params (k : Addr) (s : State) : (s.readByte k).2.params = s.params := rfl
@[simp] theorem State.readByte_trapQueue (k : Addr) (s : State) : (s.readByte k).2.trapQueue = s.trapQueue := rfl
@[simp] theorem State.readByte_trapCalls (k : Addr) (s : State) : (s.readByte k).2.trapCalls = s.trapCalls := rfl
@[simp] theorem State.readByte_bus (k : Addr) (s : State) : (s.readByte k).2.bus = (s.bus.read k).2 := rfl

/-! ### byte writes -/

@[simp] theorem State.writeByte_a (k : Addr) (v : Byte) (s : State) : (s.writeByte k v).a = s.a := rfl
@[simp] theorem State.writeByte_x (k : Addr) (v : Byte) (s : State) : (s.writeByte k v).x = s.x := rfl
@[simp] theorem State.writeByte_y (k : Addr) (v : Byte) (s : State) : (s.writeByte k v).y = s.y := rfl
@[simp] theorem State.writeByte_sp (k : Addr) (v : Byte) (s : State) : (s.writeByte k v).sp = s.sp := rfl
@[simp] theorem State.writeByte_pc (k : Addr) (v : Byte) (s : State) : (s.writeByte k v).pc = s.pc := rfl
@[simp] theorem State.writeByte_flags (k : Addr) (v : Byte) (s : State) : (s.writeByte k v).flags = s.flags := rfl
@[simp] theorem State.writeByte_inIRQ (k : Addr) (v : Byte) (s : State) : (s.writeByte k v).inIRQ = s.inIRQ := rfl
@[simp] theorem State.writeByte_icount (k : Addr) (v : Byte) (s : State) : (s.writeByte k v).icount = s.icount := rfl
@[simp] theorem State.writeByte_params (k : Addr) (v : Byte) (s : State) : (s.writeByte k v).params = s.params := rfl
@[simp] theorem State.writeByte_trapQueue (k : Addr) (v : Byte) (s : State) : (s.writeByte k v).trapQueue = s.trapQueue := rfl
@[simp] theorem State.writeByte_trapCalls (k : Addr) (v : Byte) (s : State) : (s.writeByte k v).trapCalls = s.trapCalls := rfl
@[simp] theorem State.writeByte_bus (k : Addr) (v : Byte) (s : State) : (s.writeByte k v).bus = s.bus.write k v := rfl

/-! ### word reads -/

@[simp] theorem State.readWord_a (k : Addr) (s : State) : (s.readWord k).2.a = s.a := rfl
@[simp] theorem State.readWord_x (k : Addr) (s : State) : (s.readWord k).2.x = s.x := rfl
@[simp] theorem State.readWord_y (k : Addr) (s : State) : (s.readWord k).2.y = s.y := rfl
@[simp] theorem State.readWord_sp (k : Addr) (s : State) : (s.readWord k).2.sp = s.sp := rfl
@[simp] theorem State.readWord_pc (k : Addr) (s : State) : (s.readWord k).2.pc = s.pc := rfl
@[simp] theorem State.readWord_flags (k : Addr) (s : State) : (s.readWord k).2.flags = s.flags := rfl
@[simp] theorem State.readWord_inIRQ (k : Addr) (s : State) : (s.readWord k).2.inIRQ = s.inIRQ := rfl
@[simp] theorem State.readWord_icount (k : Addr) (s : State) : (s.readWord k).2.icount = s.icount := rfl
@[simp] theorem State.readWord_params (k : Addr) (s : State) : (s.readWord k).2.params = s.params := rfl
@[simp] theorem State.readWord_trapQueue (k : Addr) (s : State) : (s.readWord k).2.trapQueue = s.trapQueue := rfl
@[simp] theorem State.readWord_trapCalls (k : Addr) (s : State) : (s.readWord k).2.trapCalls = s.trapCalls := rfl
@[simp] theorem State.readWord_bus (k : Addr) (s : State) : (s.readWord k).2.bus = ((s.bus.read k).2.read (k + 1)).2 := rfl

/-! ### `Fetch8` -/

@[simp] theorem State.fetch8_a (s : State) : s.fetch8.2.a = s.a := rfl
@[simp] theorem State.fetch8_x (s : State) : s.fetch8.2.x = s.x := rfl
@[simp] theorem State.fetch8_y (s : State) : s.fetch8.2.y = s.y := rfl
@[simp] theorem State.fetch8_sp (s : State) : s.fetch8.2.sp = s.sp := rfl
@[simp] theorem State.fetch8_pc (s : State) : s.fetch8.2.pc = s.pc + 1 := rfl
@[simp] theorem State.fetch8_flags (s : State) : s.fetch8.2.flags = s.flags := rfl
@[simp] theorem State.fetch8_inIRQ (s : State) : s.fetch8.2.inIRQ = s.inIRQ := rfl
@[simp] theorem State.fetch8_icount (s : State) : s.fetch8.2.icount = s.icount := rfl
@[simp] theorem State.fetch8_params (s : State) : s.fetch8.2.params = s.params := rfl
@[simp] theorem State.fetch8_trapQueue (s : State) : s.fetch8.2.trapQueue = s.trapQueue := rfl
@[simp] theorem State.fetch8_trapCalls (s : State) : s.fetch8.2.trapCalls = s.trapCalls := rfl
@[simp] theorem State.fetch8_bus (s : State) : s.fetch8.2.bus = (s.bus.read s.pc).2 := rfl

/-! ### `Push8` -/

@[simp] theorem State.push8_a (v : Byte) (s : State) : (s.push8 v).a = s.a := rfl
@[simp] theorem State.push8_x (v : Byte) (s : State) : (s.push8 v).x = s.x := rfl
@[simp] theorem State.push8_y (v : Byte) (s : State) : (s.push8 v).y = s.y := rfl
@[simp] theorem State.push8_sp (v : Byte) (s : State) : (s.push8 v).sp = s.sp - 1 := rfl
@[simp] theorem State.push8_pc (v : Byte) (s : State) : (s.push8 v).pc = s.pc := rfl
@[simp] theorem State.push8_flags (v : Byte) (s : State) : (s.push8 v).flags = s.flags := rfl
@[simp] theorem State.push8_inIRQ (v : Byte) (s : State) : (s.push8 v).inIRQ = s.inIRQ := rfl
@[simp] theorem State.push8_icount (v : Byte) (s : State) : (s.push8 v).icount = s.icount := rfl
@[simp] theorem State.push8_params (v : Byte) (s : State) : (s.push8 v).params = s.params := rfl
@[simp] theorem State.push8_trapQueue (v : Byte) (s : State) : (s.push8 v).trapQueue = s.trapQueue := rfl
@[simp] theorem State.push8_trapCalls (v : Byte) (s : State) : (s.push8 v).trapCalls = s.trapCalls := rfl
@[simp] theorem State.push8_bus (v : Byte) (s : State) : (s.push8 v).bus = s.bus.write (stackAddr s.sp) v := rfl

/-! ### `Pop8` -/

@[simp] theorem State.pop8_a (s : State) : s.pop8.2.a = s.a := rfl
@[simp] theorem State.pop8_x (s : State) : s.pop8.2.x = s.x := rfl
@[simp] theorem State.pop8_y (s : State) : s.pop8.2.y = s.y := rfl
@[simp] theorem State.pop8_sp (s : State) : s.pop8.2.sp = s.sp + 1 := rfl
@[simp] theorem State.pop8_pc (s : State) : s.pop8.2.pc = s.pc := rfl
@[simp] theorem State.pop8_flags (s : State) : s.pop8.2.flags = s.flags := rfl
@[simp] theorem State.pop8_inIRQ (s : State) : s.pop8.2.inIRQ = s.inIRQ := rfl
@[simp] theorem State.pop8_icount (s : State) : s.pop8.2.icount = s.icount := rfl
@[simp] theorem State.pop8_params (s : State) : s.pop8.2.params = s.params := rfl
@[simp] theorem State.pop8_trapQueue (s : State) : s.pop8.2.trapQueue = s.trapQueue := rfl
@[simp] theorem State.pop8_trapCalls (s : State) : s.pop8.2.trapCalls = s.trapCalls := rfl
@[simp] theorem State.pop8_bus (s : State) : s.pop8.2.bus = (s.bus.read (stackAddr (s.sp + 1))).2 := rfl

/-! ### `Push16` -/

@[simp] theorem State.push16_a (w : Addr) (s : State) : (s.push16 w).a = s.a := rfl
@[simp] theorem State.push16_x (w : Addr) (s : State) : (s.push16 w).x = s.x := rfl
@[simp] theorem State.push16_y (w : Addr) (s : State) : (s.push16 w).y = s.y := rfl
@[simp] theorem State.push16_sp (w : Addr) (s : State) : (s.push16 w).sp = s.sp - 1 - 1 := rfl
@[simp] theorem State.push16_pc (w : Addr) (s : State) : (s.push16 w).pc = s.pc := rfl
@[simp] theorem State.push16_flags (w : Addr) (s : State) : (s.push16 w).flags = s.flags := rfl
@[simp] theorem State.push16_inIRQ (w : Addr) (s : State) : (s.push16 w).inIRQ = s.inIRQ := rfl
@[simp] theorem State.push16_icount (w : Addr) (s : State) : (s.push16 w).icount = s.icount := rfl
@[simp] theorem State.push16_params (w : Addr) (s : State) : (s.push16 w).params = s.params := rfl
@[simp] theorem State.push16_trapQueue (w : Addr) (s : State) : (s.push16 w).trapQueue = s.trapQueue := rfl
@[simp] theorem State.push16_trapCalls (w : Addr) (s : State) : (s.push16 w).trapCalls = s.trapCalls := rfl
@[simp] theorem State.push16_bus (w : Addr) (s : State) : (s.push16 w).bus = (s.bus.write (stackAddr s.sp) (highByte w)).write (stackAddr (s.sp - 1)) (lowByte w) := rfl

/-! ### `Pop16` -/

@[simp] theorem State.pop16_a (s : State) : s.pop16.2.a = s.a := rfl
@[simp] theorem State.pop16_x (s : State) : s.pop16.2.x = s.x := rfl
@[simp] theorem State.pop16_y (s : State) : s.pop16.2.y = s.y := rfl
@[simp] theorem State.pop16_sp (s : State) : s.pop16.2.sp = s.sp + 1 + 1 := rfl
@[simp] theorem State.pop16_pc (s : State) : s.pop16.2.pc = s.pc := rfl
@[simp] theorem State.pop16_flags (s : State) : s.pop16.2.flags = s.flags := rfl
@[simp] theorem State.pop16_inIRQ (s : State) : s.pop16.2.inIRQ = s.inIRQ := rfl
@[simp] theorem State.pop16_icount (s : State) : s.pop16.2.icount = s.icount := rfl
@[simp] theorem State.pop16_params (s : State) : s.pop16.2.params = s.params := rfl
@[simp] theorem State.pop16_trapQueue (s : State) : s.pop16.2.trapQueue = s.trapQueue := rfl
@[simp] theorem State.pop16_trapCalls (s : State) : s.pop16.2.trapCalls = s.trapCalls := rfl
@[simp] theorem State.pop16_bus (s : State) : s.pop16.2.bus = ((s.bus.read (stackAddr (s.sp + 1))).2.read (stackAddr (s.sp + 1 + 1))).2 := rfl

/-! ### interrupt entry and return -/

@[simp] theorem State.takeInterrupt_a (s : State) : s.takeInterrupt.a = s.a := by simp [State.takeInterrupt]
@[simp] theorem State.takeInterrupt_x (s : State) : s.takeInterrupt.x = s.x := by simp [State.takeInterrupt]
@[simp] theorem State.takeInterrupt_y (s : State) : s.takeInterrupt.y = s.y := by simp [State.takeInterrupt]
@[simp] theorem State.takeInterrupt_sp (s : State) : s.takeInterrupt.sp = s.sp - 1 - 1 - 1 := by simp [State.takeInterrupt]
@[simp] theorem State.takeInterrupt_flags (s : State) : s.takeInterrupt.flags = s.flags := by simp [State.takeInterrupt]
@[simp] theorem State.takeInterrupt_inIRQ (s : State) : s.takeInterrupt.inIRQ = true := by simp [State.takeInterrupt]
@[simp] theorem State.takeInterrupt_icount (s : State) : s.takeInterrupt.icount = s.icount := by simp [State.takeInterrupt]
@[simp] theorem State.takeInterrupt_params (s : State) : s.takeInterrupt.params = s.params := by simp [State.takeInterrupt]
@[simp] theorem State.takeInterrupt_trapQueue (s : State) : s.takeInterrupt.trapQueue = s.trapQueue := by simp [State.takeInterrupt]
@[simp] theorem State.takeInterrupt_trapCalls (s : State) : s.takeInterrupt.trapCalls = s.trapCalls := by simp [State.takeInterrupt]
@[simp] theorem State.returnFromInterrupt_a (s : State) : s.returnFromInterrupt.a = s.a := by simp [State.returnFromInterrupt]
@[simp] theorem State.returnFromInterrupt_x (s : State) : s.returnFromInterrupt.x = s.x := by simp [State.returnFromInterrupt]
@[simp] theorem State.returnFromInterrupt_y (s : State) : s.returnFromInterrupt.y = s.y := by simp [State.returnFromInterrupt]
@[simp] theorem State.returnFromInterrupt_sp (s : State) : s.returnFromInterrupt.sp = s.sp + 1 + 1 + 1 := by simp [State.returnFromInterrupt]
@[simp] theorem State.returnFromInterrupt_inIRQ (s : State) : s.returnFromInterrupt.inIRQ = false := by simp [State.returnFromInterrupt]
@[simp] theorem State.returnFromInterrupt_icount (s : State) : s.returnFromInterrupt.icount = s.icount := by simp [State.returnFromInterrupt]
@[simp] theorem State.returnFromInterrupt_params (s : State) : s.returnFromInterrupt.params = s.params := by simp [State.returnFromInterrupt]
@[simp] theorem State.returnFromInterrupt_trapQueue (s : State) : s.returnFromInterrupt.trapQueue = s.trapQueue := by simp [State.returnFromInterrupt]
@[simp] theorem State.returnFromInterrupt_trapCalls (s : State) : s.returnFromInterrupt.trapCalls = s.trapCalls := by simp [State.returnFromInterrupt]
@[simp] theorem State.returnFromInterrupt_flags (s : State) : s.returnFromInterrupt.flags =
    { s.flags.setByte s.pop8.1 with b := false } := by simp [State.returnFromInterrupt]

/-! ### values read -/

@[simp] theorem State.readByte_value (k : Addr) (s : State) : (s.readByte k).1 = (s.bus.read k).1 := rfl
@[simp] theorem State.fetch8_value (s : State) : s.fetch8.1 = (s.bus.read s.pc).1 := rfl
@[simp] theorem State.pop8_value (s : State) : s.pop8.1 = (s.bus.read (stackAddr (s.sp + 1))).1 := rfl
@[simp] theorem State.readWord_value (k : Addr) (s : State) :
    (s.readWord k).1 = joinBytes ((s.bus.read k).2.read (k + 1)).1 (s.bus.read k).1 := rfl
@[simp] theorem State.pop16_value (s : State) : s.pop16.1 =
    joinBytes ((s.bus.read (stackAddr (s.sp + 1))).2.read (stackAddr (s.sp + 1 + 1))).1
      (s.bus.read (stackAddr (s.sp + 1))).1 := rfl

/-- The bus with the three bytes of an interrupt frame pushed (R194, R238). -/
def State.framed (s : State) : Bus :=
  ((s.bus.write (stackAddr s.sp) (highByte (s.pc - rtiPcBiasValue s.params.rtiPcBias))).write (stackAddr (s.sp - 1))
    (lowByte (s.pc - rtiPcBiasValue s.params.rtiPcBias))).write (stackAddr (s.sp - 1 - 1)) s.flags.getByte

@[simp] theorem State.takeInterrupt_bus (s : State) : s.takeInterrupt.bus =
    ((s.framed.read Config.irqVector).2.read (Config.irqVector + 1)).2 := by
  simp [State.takeInterrupt, State.framed]

@[simp] theorem State.takeInterrupt_pc (s : State) : s.takeInterrupt.pc =
    joinBytes ((s.framed.read Config.irqVector).2.read (Config.irqVector + 1)).1 (s.framed.read Config.irqVector).1 := by
  simp [State.takeInterrupt, State.framed]

@[simp] theorem State.returnFromInterrupt_bus (s : State) : s.returnFromInterrupt.bus =
    (((s.bus.read (stackAddr (s.sp + 1))).2.read (stackAddr (s.sp + 1 + 1))).2.read
      (stackAddr (s.sp + 1 + 1 + 1))).2 := by simp [State.returnFromInterrupt]

@[simp] theorem State.returnFromInterrupt_pc (s : State) : s.returnFromInterrupt.pc =
    joinBytes (((s.bus.read (stackAddr (s.sp + 1))).2.read (stackAddr (s.sp + 1 + 1))).2.read
        (stackAddr (s.sp + 1 + 1 + 1))).1
      ((s.bus.read (stackAddr (s.sp + 1))).2.read (stackAddr (s.sp + 1 + 1))).1 +
    rtiPcBiasValue s.params.rtiPcBias := by simp [State.returnFromInterrupt]

/-! ### flag updates -/

@[simp] theorem Flags.update_c (w : Byte) (f : Flags) : (f.update w).c = f.c := rfl
@[simp] theorem Flags.update_z (w : Byte) (f : Flags) : (f.update w).z = (w == 0x00#8) := rfl
@[simp] theorem Flags.update_i (w : Byte) (f : Flags) : (f.update w).i = f.i := rfl
@[simp] theorem Flags.update_d (w : Byte) (f : Flags) : (f.update w).d = f.d := rfl
@[simp] theorem Flags.update_b (w : Byte) (f : Flags) : (f.update w).b = f.b := rfl
@[simp] theorem Flags.update_v (w : Byte) (f : Flags) : (f.update w).v = f.v := rfl
@[simp] theorem Flags.update_n (w : Byte) (f : Flags) : (f.update w).n = w.getLsbD 7 := rfl

@[simp] theorem Flags.setByte_c (p : Byte) (f : Flags) : (f.setByte p).c = p.getLsbD 0 := rfl
@[simp] theorem Flags.setByte_z (p : Byte) (f : Flags) : (f.setByte p).z = p.getLsbD 1 := rfl
@[simp] theorem Flags.setByte_i (p : Byte) (f : Flags) : (f.setByte p).i = p.getLsbD 2 := rfl
@[simp] theorem Flags.setByte_d (p : Byte) (f : Flags) : (f.setByte p).d = p.getLsbD 3 := rfl
@[simp] theorem Flags.setByte_b (p : Byte) (f : Flags) : (f.setByte p).b = f.b := rfl
@[simp] theorem Flags.setByte_v (p : Byte) (f : Flags) : (f.setByte p).v = p.getLsbD 6 := rfl
@[simp] theorem Flags.setByte_n (p : Byte) (f : Flags) : (f.setByte p).n = p.getLsbD 7 := rfl

@[simp] theorem Flags.setCarry_c (w : Bool) (f : Flags) : (f.setCarry w).c = w := rfl
@[simp] theorem Flags.setCarry_z (w : Bool) (f : Flags) : (f.setCarry w).z = f.z := rfl
@[simp] theorem Flags.setCarry_i (w : Bool) (f : Flags) : (f.setCarry w).i = f.i := rfl
@[simp] theorem Flags.setCarry_d (w : Bool) (f : Flags) : (f.setCarry w).d = f.d := rfl
@[simp] theorem Flags.setCarry_b (w : Bool) (f : Flags) : (f.setCarry w).b = f.b := rfl
@[simp] theorem Flags.setCarry_v (w : Bool) (f : Flags) : (f.setCarry w).v = f.v := rfl
@[simp] theorem Flags.setCarry_n (w : Bool) (f : Flags) : (f.setCarry w).n = f.n := rfl

@[simp] theorem Flags.setZero_c (w : Bool) (f : Flags) : (f.setZero w).c = f.c := rfl
@[simp] theorem Flags.setZero_z (w : Bool) (f : Flags) : (f.setZero w).z = w := rfl
@[simp] theorem Flags.setZero_i (w : Bool) (f : Flags) : (f.setZero w).i = f.i := rfl
@[simp] theorem Flags.setZero_d (w : Bool) (f : Flags) : (f.setZero w).d = f.d := rfl
@[simp] theorem Flags.setZero_b (w : Bool) (f : Flags) : (f.setZero w).b = f.b := rfl
@[simp] theorem Flags.setZero_v (w : Bool) (f : Flags) : (f.setZero w).v = f.v := rfl
@[simp] theorem Flags.setZero_n (w : Bool) (f : Flags) : (f.setZero w).n = f.n := rfl

@[simp] theorem Flags.setOverflow_c (w : Bool) (f : Flags) : (f.setOverflow w).c = f.c := rfl
@[simp] theorem Flags.setOverflow_z (w : Bool) (f : Flags) : (f.setOverflow w).z = f.z := rfl
@[simp] theorem Flags.setOverflow_i (w : Bool) (f : Flags) : (f.setOverflow w).i = f.i := rfl
@[simp] theorem Flags.setOverflow_d (w : Bool) (f : Flags) : (f.setOverflow w).d = f.d := rfl
@[simp] theorem Flags.setOverflow_b (w : Bool) (f : Flags) : (f.setOverflow w).b = f.b := rfl
@[simp] theorem Flags.setOverflow_v (w : Bool) (f : Flags) : (f.setOverflow w).v = w := rfl
@[simp] theorem Flags.setOverflow_n (w : Bool) (f : Flags) : (f.setOverflow w).n = f.n := rfl

@[simp] theorem Flags.setNegative_c (w : Bool) (f : Flags) : (f.setNegative w).c = f.c := rfl
@[simp] theorem Flags.setNegative_z (w : Bool) (f : Flags) : (f.setNegative w).z = f.z := rfl
@[simp] theorem Flags.setNegative_i (w : Bool) (f : Flags) : (f.setNegative w).i = f.i := rfl
@[simp] theorem Flags.setNegative_d (w : Bool) (f : Flags) : (f.setNegative w).d = f.d := rfl
@[simp] theorem Flags.setNegative_b (w : Bool) (f : Flags) : (f.setNegative w).b = f.b := rfl
@[simp] theorem Flags.setNegative_v (w : Bool) (f : Flags) : (f.setNegative w).v = f.v := rfl
@[simp] theorem Flags.setNegative_n (w : Bool) (f : Flags) : (f.setNegative w).n = w := rfl

end Sys2Proof.Machine
end

