-- ==== Sys2Proof/Laws/Ops.lean ====
section
/-! SUPPORT. One lemma per shared operation that says what it can do to the state (everything but the bus, by an
equation) and to the bus (`Bus.Keeps`). -/

namespace Sys2Proof.Machine

/-! ## Words -/

theorem Bus.readWord_keeps (L : Addr → Prop) (a k : Addr) (b : Bus) :
    Bus.Keeps L b ((b.read a).2.read k).2 := (b.read_keeps L a).trans (Bus.read_keeps L k _)

/-- A word read changes nothing but what its two byte reads do on the bus. -/
theorem State.readWord_state (a : Addr) (s : State) : (s.readWord a).2 = { s with bus := (s.readWord a).2.bus } := rfl

theorem State.readWord_keeps (L : Addr → Prop) (a : Addr) (s : State) :
    Bus.Keeps L s.bus (s.readWord a).2.bus := Bus.readWord_keeps L a _ _

/-- A word read that memory answers gives its two bytes and changes nothing. -/
theorem State.readWord_of_peek {s : State} {a : Addr} {lo hi : Byte} (hl : s.bus.peek a = some lo)
    (hh : s.bus.peek (a + 1) = some hi) : s.readWord a = (joinBytes hi lo, s) := by
  have hr := Bus.read_of_peek hh
  simp only [State.readWord, State.readByte, Bus.read_of_peek hl, hr]

/-! ## Operands -/

/-- Computing an address changes nothing but what the pointer reads do on the bus. -/
theorem effectiveAddr_state (m : MemForm) (s : State) :
    (effectiveAddr m s).2 = { s with bus := (effectiveAddr m s).2.bus } := by cases m <;> rfl

theorem effectiveAddr_keeps (L : Addr → Prop) (m : MemForm) (s : State) :
    Bus.Keeps L s.bus (effectiveAddr m s).2.bus := by
  cases m with
  | indX z => exact State.readWord_keeps L _ s
  | indY z => exact State.readWord_keeps L _ s
  | _ => exact .refl L _

/-- Reading an operand changes nothing but what the reads do on the bus. -/
theorem operand_state (f : ReadForm) (s : State) : (operand f s).2 = { s with bus := (operand f s).2.bus } := by
  cases f with
  | imm v => rfl
  | mem m =>
    change ({ (effectiveAddr m s).2 with bus := _ } : State) = _
    rw [effectiveAddr_state]
    rfl

theorem operand_keeps (L : Addr → Prop) (f : ReadForm) (s : State) : Bus.Keeps L s.bus (operand f s).2.bus := by
  cases f with
  | imm v => exact .refl L _
  | mem m => exact (effectiveAddr_keeps L m s).trans (Bus.read_keeps L _ _)

/-! ## What computing an address, reading an operand and branching leave alone -/

@[simp] theorem effectiveAddr_a (m : MemForm) (s : State) : (effectiveAddr m s).2.a = s.a := by rw [effectiveAddr_state]
@[simp] theorem effectiveAddr_x (m : MemForm) (s : State) : (effectiveAddr m s).2.x = s.x := by rw [effectiveAddr_state]
@[simp] theorem effectiveAddr_y (m : MemForm) (s : State) : (effectiveAddr m s).2.y = s.y := by rw [effectiveAddr_state]
@[simp] theorem effectiveAddr_sp (m : MemForm) (s : State) : (effectiveAddr m s).2.sp = s.sp := by rw [effectiveAddr_state]
@[simp] theorem effectiveAddr_pc (m : MemForm) (s : State) : (effectiveAddr m s).2.pc = s.pc := by rw [effectiveAddr_state]
@[simp] theorem effectiveAddr_flags (m : MemForm) (s : State) : (effectiveAddr m s).2.flags = s.flags := by rw [effectiveAddr_state]
@[simp] theorem effectiveAddr_inIRQ (m : MemForm) (s : State) : (effectiveAddr m s).2.inIRQ = s.inIRQ := by rw [effectiveAddr_state]
@[simp] theorem effectiveAddr_icount (m : MemForm) (s : State) : (effectiveAddr m s).2.icount = s.icount := by rw [effectiveAddr_state]
@[simp] theorem effectiveAddr_params (m : MemForm) (s : State) : (effectiveAddr m s).2.params = s.params := by rw [effectiveAddr_state]
@[simp] theorem effectiveAddr_trapQueue (m : MemForm) (s : State) : (effectiveAddr m s).2.trapQueue = s.trapQueue := by rw [effectiveAddr_state]
@[simp] theorem effectiveAddr_trapCalls (m : MemForm) (s : State) : (effectiveAddr m s).2.trapCalls = s.trapCalls := by rw [effectiveAddr_state]

@[simp] theorem operand_a (f : ReadForm) (s : State) : (operand f s).2.a = s.a := by rw [operand_state]
@[simp] theorem operand_x (f : ReadForm) (s : State) : (operand f s).2.x = s.x := by rw [operand_state]
@[simp] theorem operand_y (f : ReadForm) (s : State) : (operand f s).2.y = s.y := by rw [operand_state]
@[simp] theorem operand_sp (f : ReadForm) (s : State) : (operand f s).2.sp = s.sp := by rw [operand_state]
@[simp] theorem operand_pc (f : ReadForm) (s : State) : (operand f s).2.pc = s.pc := by rw [operand_state]
@[simp] theorem operand_flags (f : ReadForm) (s : State) : (operand f s).2.flags = s.flags := by rw [operand_state]
@[simp] theorem operand_inIRQ (f : ReadForm) (s : State) : (operand f s).2.inIRQ = s.inIRQ := by rw [operand_state]
@[simp] theorem operand_icount (f : ReadForm) (s : State) : (operand f s).2.icount = s.icount := by rw [operand_state]
@[simp] theorem operand_params (f : ReadForm) (s : State) : (operand f s).2.params = s.params := by rw [operand_state]
@[simp] theorem operand_trapQueue (f : ReadForm) (s : State) : (operand f s).2.trapQueue = s.trapQueue := by rw [operand_state]
@[simp] theorem operand_trapCalls (f : ReadForm) (s : State) : (operand f s).2.trapCalls = s.trapCalls := by rw [operand_state]

@[simp] theorem indirectTarget_a (w : Addr) (s : State) : (indirectTarget w s).2.a = s.a := rfl
@[simp] theorem indirectTarget_x (w : Addr) (s : State) : (indirectTarget w s).2.x = s.x := rfl
@[simp] theorem indirectTarget_y (w : Addr) (s : State) : (indirectTarget w s).2.y = s.y := rfl
@[simp] theorem indirectTarget_sp (w : Addr) (s : State) : (indirectTarget w s).2.sp = s.sp := rfl
@[simp] theorem indirectTarget_pc (w : Addr) (s : State) : (indirectTarget w s).2.pc = s.pc := rfl
@[simp] theorem indirectTarget_flags (w : Addr) (s : State) : (indirectTarget w s).2.flags = s.flags := rfl
@[simp] theorem indirectTarget_inIRQ (w : Addr) (s : State) : (indirectTarget w s).2.inIRQ = s.inIRQ := rfl
@[simp] theorem indirectTarget_icount (w : Addr) (s : State) : (indirectTarget w s).2.icount = s.icount := rfl
@[simp] theorem indirectTarget_params (w : Addr) (s : State) : (indirectTarget w s).2.params = s.params := rfl
@[simp] theorem indirectTarget_trapQueue (w : Addr) (s : State) : (indirectTarget w s).2.trapQueue = s.trapQueue := rfl
@[simp] theorem indirectTarget_trapCalls (w : Addr) (s : State) : (indirectTarget w s).2.trapCalls = s.trapCalls := rfl

/-- A branch can change PC alone. -/
theorem branch_state (cond : Bool) (rel : Byte) (s : State) :
    branch cond rel s = .next { s with pc := if cond then branchTarget rel s.pc else s.pc } := by
  cases cond <;> rfl

/-- A read-modify-write: the flags, and on the bus the accesses of the address, one read and one write. -/
theorem modifyMem_state (m : MemForm) (f : Byte → Byte) (flags : Byte → Flags → Flags) (s : State) :
    let ea := effectiveAddr m s
    let v := ea.2.bus.read ea.1
    modifyMem m f flags s = .next { s with bus := v.2.write ea.1 (f v.1), flags := flags v.1 s.flags } := by
  simp only [modifyMem]
  rw [effectiveAddr_state]
  rfl

/-- A store: the bus alone. -/
theorem storeTo_state (m : MemForm) (v : Byte) (s : State) :
    let ea := effectiveAddr m s
    storeTo m v s = .next { s with bus := ea.2.bus.write ea.1 v } := by
  simp only [storeTo]
  rw [effectiveAddr_state]
  rfl

/-! ## The instruction stream -/

theorem State.fetchBytes_state (n : Nat) (s : State) :
    (s.fetchBytes n).2 = { s with pc := s.pc + BitVec.ofNat 16 n, bus := (s.fetchBytes n).2.bus } := by
  induction n generalizing s with
  | zero => simp [State.fetchBytes]
  | succ n ih =>
    change (s.fetch8.2.fetchBytes n).2 = { s with pc := _, bus := (s.fetch8.2.fetchBytes n).2.bus }
    have hpc : s.pc + 1 + BitVec.ofNat 16 n = s.pc + BitVec.ofNat 16 (n + 1) := by
      rw [Nat.add_comm, BitVec.ofNat_add, BitVec.add_assoc]
      rfl
    rw [ih, State.fetch8_pc, hpc]
    rfl

theorem State.fetchBytes_keeps (L : Addr → Prop) (n : Nat) (s : State) :
    Bus.Keeps L s.bus (s.fetchBytes n).2.bus := by
  induction n generalizing s with
  | zero => exact .refl L _
  | succ n ih => exact (s.bus.read_keeps L s.pc).trans (ih s.fetch8.2)

theorem State.fetchBytes_length (n : Nat) (s : State) : (s.fetchBytes n).1.length = n := by
  induction n generalizing s with
  | zero => rfl
  | succ n ih => exact congrArg Nat.succ (ih s.fetch8.2)

/-- One more byte fetched is one more bus read at PC, after the others. -/
theorem State.fetchBytes_succ (n : Nat) (s : State) :
    let f := s.fetchBytes n
    let r := f.2.bus.read f.2.pc
    s.fetchBytes (n + 1) = (f.1 ++ [r.1], { f.2 with pc := f.2.pc + 1, bus := r.2 }) := by
  induction n generalizing s with
  | zero => rfl
  | succ n ih =>
    change (s.fetch8.1 :: (s.fetch8.2.fetchBytes (n + 1)).1, (s.fetch8.2.fetchBytes (n + 1)).2) = _
    rw [ih s.fetch8.2]
    rfl

theorem State.fetchInstr_state (s : State) : ∃ n : Nat,
    s.fetchInstr.2 = { s with pc := s.pc + BitVec.ofNat 16 n, bus := s.fetchInstr.2.bus } :=
  ⟨_, State.fetchBytes_state (_ + 1) s⟩

theorem State.fetchInstr_keeps (L : Addr → Prop) (s : State) : Bus.Keeps L s.bus s.fetchInstr.2.bus :=
  State.fetchBytes_keeps L (_ + 1) s

/-! ## The stack -/

theorem State.push8_keeps (v : Byte) (s : State) : Bus.Keeps (· = stackAddr s.sp) s.bus (s.push8 v).bus :=
  s.bus.write_keeps _ v

theorem State.push16_keeps (w : Addr) (s : State) :
    Bus.Keeps (· ∈ [stackAddr s.sp, stackAddr (s.sp - 1)]) s.bus (s.push16 w).bus :=
  ((s.push8_keeps (highByte w)).mono (by simp)).trans (((s.push8 _).push8_keeps (lowByte w)).mono (by simp))

theorem State.pop8_keeps (L : Addr → Prop) (s : State) : Bus.Keeps L s.bus s.pop8.2.bus := Bus.read_keeps L _ _

theorem State.pop16_keeps (L : Addr → Prop) (s : State) : Bus.Keeps L s.bus s.pop16.2.bus :=
  Bus.readWord_keeps L _ _ _

/-! ## The interrupt -/

/-- Taking the interrupt leaves everything but SP, PC, the guard and the bus. -/
theorem State.takeInterrupt_state (s : State) :
    s.takeInterrupt = { s with
      sp := s.sp - 1 - 1 - 1, pc := s.takeInterrupt.pc, inIRQ := true, bus := s.takeInterrupt.bus } := by
  ext1 <;> simp

/-- Taking the interrupt writes at most the three bytes below SP. -/
theorem State.takeInterrupt_keeps (s : State) :
    Bus.Keeps (· ∈ [stackAddr s.sp, stackAddr (s.sp - 1), stackAddr (s.sp - 1 - 1)]) s.bus s.takeInterrupt.bus := by
  have h1 := (s.push16_keeps (s.pc - rtiPcBiasValue s.params.rtiPcBias)).mono
    (M := (· ∈ [stackAddr s.sp, stackAddr (s.sp - 1), stackAddr (s.sp - 1 - 1)])) (by simp)
  have h2 := (State.push8_keeps s.flags.getByte (s.push16 (s.pc - rtiPcBiasValue s.params.rtiPcBias))).mono
    (M := (· ∈ [stackAddr s.sp, stackAddr (s.sp - 1), stackAddr (s.sp - 1 - 1)])) (by simp)
  exact (h1.trans h2).trans (Bus.readWord_keeps _ _ _ _)

theorem State.interrupt_masked {s : State} (h : s.flags.i = true ∨ s.inIRQ = true) : s.interrupt = s := by
  have : (s.flags.i || s.inIRQ) = true := by simpa using h
  simp [State.interrupt, this]

theorem State.interrupt_taken {s : State} (hi : s.flags.i = false) (hq : s.inIRQ = false) :
    s.interrupt = s.takeInterrupt := by simp [State.interrupt, hi, hq]

/-- The poll at a boundary, then nothing or the interrupt entry: all a boundary can do. -/
theorem State.boundary_cases (s : State) :
    s.boundary = { s with bus := s.bus.poll.2 } ∨
      (s.bus.poll.1 = true ∧ s.flags.i = false ∧ s.inIRQ = false ∧
        s.boundary = State.takeInterrupt { s with bus := s.bus.poll.2 }) := by
  cases hp : s.bus.poll.1 with
  | false => exact .inl (by simp [State.boundary, hp])
  | true =>
    by_cases h : s.flags.i = true ∨ s.inIRQ = true
    · exact .inl (by
        simp only [State.boundary, hp, if_true]
        exact State.interrupt_masked h)
    · simp only [not_or, Bool.not_eq_true] at h
      exact .inr ⟨rfl, h.1, h.2, by
        simp only [State.boundary, hp, if_true]
        exact State.interrupt_taken h.1 h.2⟩

theorem State.boundary_keeps (s : State) : Bus.Keeps (fun _ => True) s.bus s.boundary.bus := by
  rcases s.boundary_cases with h | ⟨-, -, -, h⟩ <;> rw [h]
  · exact s.bus.poll_keeps _
  · exact (s.bus.poll_keeps _).trans
      ((State.takeInterrupt_keeps { s with bus := s.bus.poll.2 }).mono (fun _ _ => trivial))

/-- What a boundary leaves alone. -/
theorem State.boundary_state (s : State) :
    s.boundary = { s with
      sp := s.boundary.sp, pc := s.boundary.pc, inIRQ := s.boundary.inIRQ, bus := s.boundary.bus } := by
  rcases s.boundary_cases with h | ⟨-, -, -, h⟩ <;> ext1 <;> simp [h]

/-- Returning from the interrupt leaves everything but SP, PC, the flags, the guard and the bus. -/
theorem State.returnFromInterrupt_keeps (L : Addr → Prop) (s : State) :
    Bus.Keeps L s.bus s.returnFromInterrupt.bus := (s.pop8_keeps L).trans (State.pop16_keeps L _)

/-! ## TRAP -/

theorem State.runActions_state (l : List BusAction) (s : State) :
    l.foldl State.runAction s = { s with bus := (l.foldl State.runAction s).bus } := by
  induction l generalizing s with
  | nil => rfl
  | cons act l ih => rw [List.foldl_cons, ih]; cases act <;> rfl

/-- A callback that returns changes the registers and flags it may write, the bus and the host's record (R220). -/
theorem State.afterTrap_state (r : TrapReturn) (s : State) : s.afterTrap r = { s with
    a := r.a, x := r.x, y := r.y
    flags := { c := r.c, z := r.z, i := r.i, d := r.d, b := s.flags.b, v := r.v, n := r.n }
    bus := (r.actions.foldl State.runAction s).bus
    trapQueue := s.trapQueue.tail
    trapCalls := s.a :: s.trapCalls } := by
  rw [State.afterTrap, State.runActions_state]

/-- A TRAP callback writes only where its actions write. -/
theorem State.runActions_keeps (l : List BusAction) (s : State) :
    Bus.Keeps (fun a => ∃ v, BusAction.write a v ∈ l) s.bus (l.foldl State.runAction s).bus := by
  induction l generalizing s with
  | nil => exact .refl _ _
  | cons act l ih =>
    refine Bus.Keeps.trans ?_ ((ih (s.runAction act)).mono (fun a ⟨v, hv⟩ => ⟨v, List.mem_cons_of_mem _ hv⟩))
    cases act with
    | read a => exact Bus.read_keeps _ _ _
    | write a v => exact (Bus.write_keeps a v _).mono (fun k hk => ⟨v, by simp [hk]⟩)

end Sys2Proof.Machine
end

