-- ==== Sys2Proof/Laws/Exec.lean ====
section
/-! SUPPORT. Once for all instructions: what no instruction touches, what an instruction can do to the bus, and what a step
that answers next has done. -/

namespace Sys2Proof.Machine

/-- No instruction writes the counter or the parameters: the step counts (R27), the host launches (R4). -/
theorem exec_icount_params {i : Instr} {s t : State} (h : exec i s = .next t) :
    t.icount = s.icount ∧ t.params = s.params := by
  cases i
  case trap =>
    simp only [exec, execTrap] at h
    split at h <;> cases h
    rw [State.afterTrap_state]
    exact ⟨rfl, rfl⟩
  case brk => cases h
  case rti | jsr | rts | pla | plp | pha | php => all_goals (cases h; simp)
  case bcc | bcs | beq | bne | bmi | bpl | bvc | bvs =>
    all_goals
      simp only [exec, execBcc, execBcs, execBeq, execBne, execBmi, execBpl, execBvc, execBvs, branch_state] at h
      cases h
      exact ⟨rfl, rfl⟩
  all_goals
    cases h
    exact ⟨rfl, rfl⟩

/-- On the bus an instruction reads and writes; it never maps, resizes or replaces a device (R43, D21). -/
theorem exec_keeps {i : Instr} {s t : State} (h : exec i s = .next t) : Bus.Keeps (fun _ => True) s.bus t.bus := by
  have anywhere : ∀ {L : Addr → Prop} {b c : Bus}, Bus.Keeps L b c → Bus.Keeps (fun _ => True) b c :=
    fun k => k.mono fun _ _ => trivial
  cases i
  case trap =>
    simp only [exec, execTrap] at h
    split at h <;> cases h
    exact anywhere (State.runActions_keeps _ s)
  case brk => cases h
  case pha | php => all_goals (cases h; exact anywhere (State.push8_keeps _ s))
  case jsr =>
    simp only [exec, execJsr, Host.Outcome.next.injEq] at h
    subst h
    have k := anywhere (State.push16_keeps (s.pc - 1) s)
    exact k
  case pla | plp => all_goals (cases h; exact State.pop8_keeps _ s)
  case rts => cases h; exact State.pop16_keeps _ s
  case rti =>
    cases h
    rw [State.returnFromInterrupt_bus]
    exact (Bus.readWord_keeps _ _ _ _).trans (Bus.read_keeps _ _ _)
  case jmpInd => cases h; exact State.readWord_keeps _ _ s
  case bcc | bcs | beq | bne | bmi | bpl | bvc | bvs =>
    all_goals
      simp only [exec, execBcc, execBcs, execBeq, execBne, execBmi, execBpl, execBvc, execBvs, branch_state] at h
      cases h
      exact .refl _ _
  case staZp | staZpX | staAbs | staAbsX | staAbsY | staIndX | staIndY | stxZp | stxZpY | stxAbs | styZp | styZpX | styAbs =>
    all_goals (cases h; exact (effectiveAddr_keeps _ _ s).trans (anywhere (Bus.write_keeps _ _ _)))
  case incZp | incZpX | incAbs | incAbsX | decZp | decZpX | decAbs | decAbsX | aslZp | aslZpX | aslAbs | aslAbsX | lsrZp |
      lsrZpX | lsrAbs | lsrAbsX | rolZp | rolZpX | rolAbs | rolAbsX | rorZp | rorZpX | rorAbs | rorAbsX =>
    all_goals
      cases h
      exact ((effectiveAddr_keeps _ _ s).trans (Bus.read_keeps _ _ _)).trans (anywhere (Bus.write_keeps _ _ _))
  all_goals
    cases h
    first
    | exact .refl _ _
    | exact operand_keeps _ _ s

/-- A step that answers next ran one decoded instruction to its end, counted it, and passed one boundary (R97, R244). -/
theorem step_next {s t : State} (h : step s = .next t) : ∃ i rest u, s.fetchInstr.1 = .instr i rest ∧
    exec i s.fetchInstr.2 = .next u ∧ t = State.boundary { u with icount := u.icount + 1 } := by
  simp only [step, hostTurn, cpuStep] at h
  cases hf : s.fetchInstr.1 with
  | instr i rest =>
    cases he : exec i s.fetchInstr.2 with
    | next u => simp only [hf, he] at h; cases h; exact ⟨i, rest, u, rfl, he, rfl⟩
    | fault f => simp only [hf, he] at h; cases h
    | refused r => simp only [hf, he] at h; cases h
  | unknownOpcode _ => simp only [hf] at h; cases h
  | unsupportedMode _ _ => simp only [hf] at h; cases h
  | truncated => simp only [hf] at h; cases h

/-- A step never maps, resizes or replaces a device (R43, D21). -/
theorem step_keeps {s t : State} (h : step s = .next t) : Bus.Keeps (fun _ => True) s.bus t.bus := by
  obtain ⟨i, rest, u, -, he, rfl⟩ := step_next h
  exact ((State.fetchInstr_keeps _ s).trans (exec_keeps he)).trans (State.boundary_keeps { u with icount := u.icount + 1 })

end Sys2Proof.Machine
end

