-- ==== Sys2Proof/Laws/Boot.lean ====
section
/-! SUPPORT. What loading, patching and placing bytes keep: the canonical form, and every byte but those they set. With the
lemmas of Laws/Bus.lean and Laws/Exec.lean, every operation on memory keeps the canonical form. -/

namespace Sys2Proof.Machine

/-- The memory of the reset state is canonical. -/
theorem State.reset_wf : State.reset.bus.wf = true := by decide

/-! ## Vector patches (R266) -/

theorem Device.patch_keeps (n : Nat) (a : Addr) (v : Byte) (calls : List BusCall) (d : Device)
    (hc : d.contains a = true) : Device.Keeps (· = a) d (d.patch n a v calls).1 := by
  have hr := (Device.contains_iff d a).mp hc
  obtain ⟨base, size, kind⟩ := d
  cases kind with
  | ram m => exact Device.write_keeps n a v calls _ hc
  | peripheral p => exact .refl _ _
  | rom m p =>
    refine ⟨rfl, fun h => ?_, fun k hk =>
      congrArg some (Memory.read_write_other v m fun e => hk (BitVec.eq_of_toNat_eq e))⟩
    simp only [Device.wf, Bool.and_eq_true] at h
    simpa [Device.wf, Device.patch] using Memory.write_deviceWf v hr h

theorem patchDevices_keeps (a : Addr) (v : Byte) (calls : List BusCall) (ds : List Device) :
    List.Forall₂ (Device.Keeps (· = a)) ds (patchDevices a v calls ds).1 := by
  induction ds generalizing calls with
  | nil => exact .nil
  | cons d ds ih =>
    rw [patchDevices]
    split
    · exact .cons (d.patch_keeps _ a v calls (by assumption)) (ih _)
    · exact .cons (.refl _ d) (ih _)

/-- A patch writes only at its own addresses. -/
theorem patchBytes_keeps (bytes : List Byte) (t : Addr) (b : Bus) :
    Bus.Keeps (fun a => ∃ j, j < bytes.length ∧ a = t + BitVec.ofNat 16 j) b (patchBytes t bytes b) := by
  induction bytes generalizing t b with
  | nil => exact .refl _ _
  | cons v vs ih =>
    have k : Bus.Keeps (· = t) b ⟨(patchDevices t v b.calls b.devices).1, (patchDevices t v b.calls b.devices).2⟩ :=
      patchDevices_keeps t v b.calls b.devices
    refine (k.mono fun a ha => ⟨0, by simp, by simp [ha]⟩).trans ((ih (t + 1) _).mono ?_)
    rintro a ⟨j, hj, rfl⟩
    refine ⟨j + 1, by simpa using hj, ?_⟩
    rw [Nat.add_comm j, BitVec.ofNat_add, ← BitVec.add_assoc]
    rfl

/-- A vector patch maps nothing and keeps the canonical form. -/
theorem State.vectorPatch_keeps (vector : Addr) (bytes : List Byte) (s : State) :
    Bus.Keeps (fun _ => True) s.bus (s.vectorPatch vector bytes).bus :=
  (State.readWord_keeps _ (vector + 1) s).trans ((patchBytes_keeps bytes _ _).mono fun _ _ => trivial)

/-! ## Images (R265) -/

/-- An image held from `a` on is canonical and lies in its range. -/
theorem imageMemory_wfIn (image : List Byte) (a hi : Nat) (h : a + image.length ≤ hi) :
    (imageMemory a image).wfIn a hi = true ∧ (imageMemory a image).wfIn a 65536 = true := by
  induction image generalizing a with
  | nil => exact ⟨rfl, rfl⟩
  | cons v vs ih =>
    simp only [List.length_cons] at h
    have k := ih (a + 1) (by omega)
    rw [imageMemory]
    split
    · exact ⟨Memory.write_wfIn v _ (Memory.wfIn_lower _ k.1 (by omega)) (Nat.le_refl _) (by omega),
        Memory.write_wfIn v _ (Memory.wfIn_lower _ k.2 (by omega)) (Nat.le_refl _) (by assumption)⟩
    · exact ⟨rfl, rfl⟩

/-- An image held from `a` on is held verbatim, as far as the address space reaches (R265). -/
theorem imageMemory_read {image : List Byte} {j : Nat} {v : Byte} (a : Nat) (h : image[j]? = some v) (hj : a + j < 65536) :
    (imageMemory a image).read (a + j) = v := by
  induction image generalizing a j with
  | nil => cases h
  | cons w ws ih =>
    rw [imageMemory, if_pos (by omega)]
    cases j with
    | zero =>
      cases h
      exact Memory.read_write_same v _ (imageMemory_wfIn ws (a + 1) _ (Nat.le_refl _)).1
    | succ j =>
      rw [Memory.read_write_other _ _ (by omega), show a + (j + 1) = a + 1 + j by omega]
      exact ih (a + 1) h (by omega)

/-- A loaded ROM is a device in canonical form. -/
theorem loadRom_wf {base : Addr} {size : Nat} {p : RomWritePolicy} {image : Option (List Byte)} {d : Device}
    (h : loadRom base size p image = .ok d) : d.wf = true := by
  cases image with
  | none => cases h
  | some image =>
    rw [loadRom] at h
    split at h <;> cases h
    rename_i hf
    have k := imageMemory_wfIn image base.toNat (base.toNat + size) (by simpa [romImageFits] using hf)
    simp [Device.wf, Memory.wf, k.1, Memory.wfIn_lower _ k.2 (Nat.zero_le _)]

/-! ## Placed bytes (log 14) -/

theorem placeDevices_wf {a : Addr} {v : Byte} {ds es : List Device} (h : placeDevices a v ds = some es)
    (hw : ds.all Device.wf = true) : es.all Device.wf = true := by
  induction ds generalizing es with
  | nil => cases h
  | cons d ds ih =>
    simp only [List.all_cons, Bool.and_eq_true] at hw
    rw [placeDevices] at h
    split at h
    · rename_i hc
      have hr := (Device.contains_iff d a).mp hc
      obtain ⟨base, size, kind⟩ := d
      cases kind with
      | ram m =>
        cases h
        have k := hw.1
        simp only [Device.wf, Bool.and_eq_true] at k
        have k' := Memory.write_deviceWf v hr k
        simpa [Device.wf, hw.2] using k'
      | rom m p =>
        cases h
        have k := hw.1
        simp only [Device.wf, Bool.and_eq_true] at k
        have k' := Memory.write_deviceWf v hr k
        simpa [Device.wf, hw.2] using k'
      | peripheral p => cases h
    · obtain ⟨fs, hf, rfl⟩ := Option.map_eq_some_iff.mp h
      simp [hw.1, ih hf hw.2]

/-- Placing a byte keeps the canonical form. -/
theorem Bus.place_wf {a : Addr} {v : Byte} {b : Bus} (hw : b.wf = true) : (b.place a v).wf = true := by
  rw [Bus.place]
  split
  · rename_i ds h
    exact placeDevices_wf h hw
  · have k : Memory.wfIn a.toNat (a.toNat + 1) (Memory.write a.toNat v []) = true :=
      Memory.write_wfIn v [] rfl (Nat.le_refl _) (Nat.lt_succ_self _)
    have k' : Memory.wfIn 0 65536 (Memory.write a.toNat v []) = true :=
      Memory.write_wfIn v [] rfl (Nat.zero_le _) a.isLt
    have hb : b.devices.all Device.wf = true := hw
    simp [Bus.map, Bus.wf, Device.wf, Memory.wf, k, k', hb]

theorem placeBytes_wf (bytes : List Byte) {a : Addr} {b : Bus} (hw : b.wf = true) :
    (placeBytes a bytes b).wf = true := by
  induction bytes generalizing a b with
  | nil => exact hw
  | cons v vs ih => exact ih (Bus.place_wf hw)

end Sys2Proof.Machine
end

