-- ==== Sys2Proof/Laws/Decode.lean ====
section
/-! SUPPORT. Bytes joined and split, and the descriptor of an opcode byte: which part of decoding depends on
`TRAP_OPCODE`. -/

namespace Sys2Proof

@[simp] theorem joinBytes_high_low (w : Addr) : joinBytes (highByte w) (lowByte w) = w := by
  apply BitVec.eq_of_getLsbD_eq
  intro i hi
  simp only [joinBytes, highByte, lowByte, BitVec.getLsbD_append, BitVec.getLsbD_extractLsb']
  by_cases h : i < 8
  · simp [h]
  · have h2 : i - 8 < 8 := by omega
    have h3 : 8 + (i - 8) = i := by omega
    simp [h, h2, h3]

@[simp] theorem highByte_joinBytes (hi lo : Byte) : highByte (joinBytes hi lo) = hi := by
  apply BitVec.eq_of_getLsbD_eq
  intro i h
  simp only [joinBytes, highByte, BitVec.getLsbD_append, BitVec.getLsbD_extractLsb', h]
  simp

@[simp] theorem lowByte_joinBytes (hi lo : Byte) : lowByte (joinBytes hi lo) = lo := by
  apply BitVec.eq_of_getLsbD_eq
  intro i h
  simp only [joinBytes, lowByte, BitVec.getLsbD_append, BitVec.getLsbD_extractLsb', h]
  simp [h]

theorem joinBytes_toNat (hi lo : Byte) : (joinBytes hi lo).toNat = hi.toNat * 256 + lo.toNat := by
  rw [joinBytes, BitVec.toNat_append, ← Nat.shiftLeft_add_eq_or_of_lt lo.isLt, Nat.shiftLeft_eq]

theorem joinBytes_eq_ofNat (hi lo : Byte) : joinBytes hi lo = BitVec.ofNat 16 (hi.toNat * 256 + lo.toNat) := by
  rw [← joinBytes_toNat, BitVec.ofNat_toNat, BitVec.setWidth_eq]

theorem lowByte_eq_ofNat (w : Addr) : lowByte w = BitVec.ofNat 8 (w.toNat % 256) := by
  apply BitVec.eq_of_toNat_eq
  simp [lowByte]

theorem highByte_eq_ofNat (w : Addr) : highByte w = BitVec.ofNat 8 (w.toNat / 256) := by
  apply BitVec.eq_of_toNat_eq
  simp [highByte, Nat.shiftRight_eq_div_pow]

theorem trapOpcode_ne {k op : Byte} (hk : trapOpcodeLegal k = true) (h : trapOpcodeLegal op = false) : op ≠ k := by
  rintro rfl
  simp_all

/-- The descriptor of an opcode that is no legal `TRAP_OPCODE` is the table's. -/
theorem descriptor_of_documented {k op : Byte} (hk : trapOpcodeLegal k = true) (h : trapOpcodeLegal op = false) :
    descriptor k op = (opcodeTable.find? (fun r => r.opcode == op)).map (fun r => (r.handler, r.mode)) := by
  rw [descriptor, if_neg (trapOpcode_ne hk h)]

/-- The opcodes of the table are the bytes R99 does not list. -/
theorem opcodeTable_documented : ∀ r ∈ opcodeTable, trapOpcodeLegal r.opcode = false := by decide +kernel

/-- Decoding a documented opcode does not depend on which legal value `TRAP_OPCODE` has. -/
theorem decode_of_documented {k j op : Byte} (tail : List Byte) (hk : trapOpcodeLegal k = true)
    (hj : trapOpcodeLegal j = true) (h : trapOpcodeLegal op = false) : decode k (op :: tail) = decode j (op :: tail) := by
  simp only [decode, descriptor_of_documented hk h, descriptor_of_documented hj h]

@[simp] theorem descriptor_trap (k : Byte) : descriptor k k = some (.TRAP, .IMP) := by simp [descriptor]

end Sys2Proof
end

