-- ==== Sys2Proof/Laws/PerInstr.lean ====
section
/-! SUPPORT. Per instruction: its encoding has its mode's length, whatever `TRAP_OPCODE` is (R80, R81). -/

namespace Sys2Proof.Laws.EncodedLength

/-- The opcode byte and the operand bytes of the mode. -/
def Statement (i : Instr) : Prop := ∀ trapOp : Byte, (encode trapOp i).length = 1 + i.mode.operandBytes

theorem ldaImm (imm : Byte) : Statement (.ldaImm imm) := fun _ => rfl
theorem ldaZp (zp : Byte) : Statement (.ldaZp zp) := fun _ => rfl
theorem ldaZpX (zp : Byte) : Statement (.ldaZpX zp) := fun _ => rfl
theorem ldaAbs (addr : Addr) : Statement (.ldaAbs addr) := fun _ => rfl
theorem ldaAbsX (addr : Addr) : Statement (.ldaAbsX addr) := fun _ => rfl
theorem ldaAbsY (addr : Addr) : Statement (.ldaAbsY addr) := fun _ => rfl
theorem ldaIndX (zp : Byte) : Statement (.ldaIndX zp) := fun _ => rfl
theorem ldaIndY (zp : Byte) : Statement (.ldaIndY zp) := fun _ => rfl
theorem ldxImm (imm : Byte) : Statement (.ldxImm imm) := fun _ => rfl
theorem ldxZp (zp : Byte) : Statement (.ldxZp zp) := fun _ => rfl
theorem ldxZpY (zp : Byte) : Statement (.ldxZpY zp) := fun _ => rfl
theorem ldxAbs (addr : Addr) : Statement (.ldxAbs addr) := fun _ => rfl
theorem ldxAbsY (addr : Addr) : Statement (.ldxAbsY addr) := fun _ => rfl
theorem ldyImm (imm : Byte) : Statement (.ldyImm imm) := fun _ => rfl
theorem ldyZp (zp : Byte) : Statement (.ldyZp zp) := fun _ => rfl
theorem ldyZpX (zp : Byte) : Statement (.ldyZpX zp) := fun _ => rfl
theorem ldyAbs (addr : Addr) : Statement (.ldyAbs addr) := fun _ => rfl
theorem ldyAbsX (addr : Addr) : Statement (.ldyAbsX addr) := fun _ => rfl
theorem staZp (zp : Byte) : Statement (.staZp zp) := fun _ => rfl
theorem staZpX (zp : Byte) : Statement (.staZpX zp) := fun _ => rfl
theorem staAbs (addr : Addr) : Statement (.staAbs addr) := fun _ => rfl
theorem staAbsX (addr : Addr) : Statement (.staAbsX addr) := fun _ => rfl
theorem staAbsY (addr : Addr) : Statement (.staAbsY addr) := fun _ => rfl
theorem staIndX (zp : Byte) : Statement (.staIndX zp) := fun _ => rfl
theorem staIndY (zp : Byte) : Statement (.staIndY zp) := fun _ => rfl
theorem stxZp (zp : Byte) : Statement (.stxZp zp) := fun _ => rfl
theorem stxZpY (zp : Byte) : Statement (.stxZpY zp) := fun _ => rfl
theorem stxAbs (addr : Addr) : Statement (.stxAbs addr) := fun _ => rfl
theorem styZp (zp : Byte) : Statement (.styZp zp) := fun _ => rfl
theorem styZpX (zp : Byte) : Statement (.styZpX zp) := fun _ => rfl
theorem styAbs (addr : Addr) : Statement (.styAbs addr) := fun _ => rfl
theorem tax : Statement .tax := fun _ => rfl
theorem tay : Statement .tay := fun _ => rfl
theorem txa : Statement .txa := fun _ => rfl
theorem tya : Statement .tya := fun _ => rfl
theorem tsx : Statement .tsx := fun _ => rfl
theorem txs : Statement .txs := fun _ => rfl
theorem pha : Statement .pha := fun _ => rfl
theorem php : Statement .php := fun _ => rfl
theorem pla : Statement .pla := fun _ => rfl
theorem plp : Statement .plp := fun _ => rfl
theorem adcImm (imm : Byte) : Statement (.adcImm imm) := fun _ => rfl
theorem adcZp (zp : Byte) : Statement (.adcZp zp) := fun _ => rfl
theorem adcZpX (zp : Byte) : Statement (.adcZpX zp) := fun _ => rfl
theorem adcAbs (addr : Addr) : Statement (.adcAbs addr) := fun _ => rfl
theorem adcAbsX (addr : Addr) : Statement (.adcAbsX addr) := fun _ => rfl
theorem adcAbsY (addr : Addr) : Statement (.adcAbsY addr) := fun _ => rfl
theorem adcIndX (zp : Byte) : Statement (.adcIndX zp) := fun _ => rfl
theorem adcIndY (zp : Byte) : Statement (.adcIndY zp) := fun _ => rfl
theorem sbcImm (imm : Byte) : Statement (.sbcImm imm) := fun _ => rfl
theorem sbcZp (zp : Byte) : Statement (.sbcZp zp) := fun _ => rfl
theorem sbcZpX (zp : Byte) : Statement (.sbcZpX zp) := fun _ => rfl
theorem sbcAbs (addr : Addr) : Statement (.sbcAbs addr) := fun _ => rfl
theorem sbcAbsX (addr : Addr) : Statement (.sbcAbsX addr) := fun _ => rfl
theorem sbcAbsY (addr : Addr) : Statement (.sbcAbsY addr) := fun _ => rfl
theorem sbcIndX (zp : Byte) : Statement (.sbcIndX zp) := fun _ => rfl
theorem sbcIndY (zp : Byte) : Statement (.sbcIndY zp) := fun _ => rfl
theorem cmpImm (imm : Byte) : Statement (.cmpImm imm) := fun _ => rfl
theorem cmpZp (zp : Byte) : Statement (.cmpZp zp) := fun _ => rfl
theorem cmpZpX (zp : Byte) : Statement (.cmpZpX zp) := fun _ => rfl
theorem cmpAbs (addr : Addr) : Statement (.cmpAbs addr) := fun _ => rfl
theorem cmpAbsX (addr : Addr) : Statement (.cmpAbsX addr) := fun _ => rfl
theorem cmpAbsY (addr : Addr) : Statement (.cmpAbsY addr) := fun _ => rfl
theorem cmpIndX (zp : Byte) : Statement (.cmpIndX zp) := fun _ => rfl
theorem cmpIndY (zp : Byte) : Statement (.cmpIndY zp) := fun _ => rfl
theorem cpxImm (imm : Byte) : Statement (.cpxImm imm) := fun _ => rfl
theorem cpxZp (zp : Byte) : Statement (.cpxZp zp) := fun _ => rfl
theorem cpxAbs (addr : Addr) : Statement (.cpxAbs addr) := fun _ => rfl
theorem cpyImm (imm : Byte) : Statement (.cpyImm imm) := fun _ => rfl
theorem cpyZp (zp : Byte) : Statement (.cpyZp zp) := fun _ => rfl
theorem cpyAbs (addr : Addr) : Statement (.cpyAbs addr) := fun _ => rfl
theorem incZp (zp : Byte) : Statement (.incZp zp) := fun _ => rfl
theorem incZpX (zp : Byte) : Statement (.incZpX zp) := fun _ => rfl
theorem incAbs (addr : Addr) : Statement (.incAbs addr) := fun _ => rfl
theorem incAbsX (addr : Addr) : Statement (.incAbsX addr) := fun _ => rfl
theorem decZp (zp : Byte) : Statement (.decZp zp) := fun _ => rfl
theorem decZpX (zp : Byte) : Statement (.decZpX zp) := fun _ => rfl
theorem decAbs (addr : Addr) : Statement (.decAbs addr) := fun _ => rfl
theorem decAbsX (addr : Addr) : Statement (.decAbsX addr) := fun _ => rfl
theorem inx : Statement .inx := fun _ => rfl
theorem iny : Statement .iny := fun _ => rfl
theorem dex : Statement .dex := fun _ => rfl
theorem dey : Statement .dey := fun _ => rfl
theorem andImm (imm : Byte) : Statement (.andImm imm) := fun _ => rfl
theorem andZp (zp : Byte) : Statement (.andZp zp) := fun _ => rfl
theorem andZpX (zp : Byte) : Statement (.andZpX zp) := fun _ => rfl
theorem andAbs (addr : Addr) : Statement (.andAbs addr) := fun _ => rfl
theorem andAbsX (addr : Addr) : Statement (.andAbsX addr) := fun _ => rfl
theorem andAbsY (addr : Addr) : Statement (.andAbsY addr) := fun _ => rfl
theorem andIndX (zp : Byte) : Statement (.andIndX zp) := fun _ => rfl
theorem andIndY (zp : Byte) : Statement (.andIndY zp) := fun _ => rfl
theorem oraImm (imm : Byte) : Statement (.oraImm imm) := fun _ => rfl
theorem oraZp (zp : Byte) : Statement (.oraZp zp) := fun _ => rfl
theorem oraZpX (zp : Byte) : Statement (.oraZpX zp) := fun _ => rfl
theorem oraAbs (addr : Addr) : Statement (.oraAbs addr) := fun _ => rfl
theorem oraAbsX (addr : Addr) : Statement (.oraAbsX addr) := fun _ => rfl
theorem oraAbsY (addr : Addr) : Statement (.oraAbsY addr) := fun _ => rfl
theorem oraIndX (zp : Byte) : Statement (.oraIndX zp) := fun _ => rfl
theorem oraIndY (zp : Byte) : Statement (.oraIndY zp) := fun _ => rfl
theorem eorImm (imm : Byte) : Statement (.eorImm imm) := fun _ => rfl
theorem eorZp (zp : Byte) : Statement (.eorZp zp) := fun _ => rfl
theorem eorZpX (zp : Byte) : Statement (.eorZpX zp) := fun _ => rfl
theorem eorAbs (addr : Addr) : Statement (.eorAbs addr) := fun _ => rfl
theorem eorAbsX (addr : Addr) : Statement (.eorAbsX addr) := fun _ => rfl
theorem eorAbsY (addr : Addr) : Statement (.eorAbsY addr) := fun _ => rfl
theorem eorIndX (zp : Byte) : Statement (.eorIndX zp) := fun _ => rfl
theorem eorIndY (zp : Byte) : Statement (.eorIndY zp) := fun _ => rfl
theorem bitZp (zp : Byte) : Statement (.bitZp zp) := fun _ => rfl
theorem bitAbs (addr : Addr) : Statement (.bitAbs addr) := fun _ => rfl
theorem aslAcc : Statement .aslAcc := fun _ => rfl
theorem aslZp (zp : Byte) : Statement (.aslZp zp) := fun _ => rfl
theorem aslZpX (zp : Byte) : Statement (.aslZpX zp) := fun _ => rfl
theorem aslAbs (addr : Addr) : Statement (.aslAbs addr) := fun _ => rfl
theorem aslAbsX (addr : Addr) : Statement (.aslAbsX addr) := fun _ => rfl
theorem lsrAcc : Statement .lsrAcc := fun _ => rfl
theorem lsrZp (zp : Byte) : Statement (.lsrZp zp) := fun _ => rfl
theorem lsrZpX (zp : Byte) : Statement (.lsrZpX zp) := fun _ => rfl
theorem lsrAbs (addr : Addr) : Statement (.lsrAbs addr) := fun _ => rfl
theorem lsrAbsX (addr : Addr) : Statement (.lsrAbsX addr) := fun _ => rfl
theorem rolAcc : Statement .rolAcc := fun _ => rfl
theorem rolZp (zp : Byte) : Statement (.rolZp zp) := fun _ => rfl
theorem rolZpX (zp : Byte) : Statement (.rolZpX zp) := fun _ => rfl
theorem rolAbs (addr : Addr) : Statement (.rolAbs addr) := fun _ => rfl
theorem rolAbsX (addr : Addr) : Statement (.rolAbsX addr) := fun _ => rfl
theorem rorAcc : Statement .rorAcc := fun _ => rfl
theorem rorZp (zp : Byte) : Statement (.rorZp zp) := fun _ => rfl
theorem rorZpX (zp : Byte) : Statement (.rorZpX zp) := fun _ => rfl
theorem rorAbs (addr : Addr) : Statement (.rorAbs addr) := fun _ => rfl
theorem rorAbsX (addr : Addr) : Statement (.rorAbsX addr) := fun _ => rfl
theorem jmpAbs (addr : Addr) : Statement (.jmpAbs addr) := fun _ => rfl
theorem jmpInd (ptr : Addr) : Statement (.jmpInd ptr) := fun _ => rfl
theorem jsr (addr : Addr) : Statement (.jsr addr) := fun _ => rfl
theorem rts : Statement .rts := fun _ => rfl
theorem rti : Statement .rti := fun _ => rfl
theorem bcc (rel : Byte) : Statement (.bcc rel) := fun _ => rfl
theorem bcs (rel : Byte) : Statement (.bcs rel) := fun _ => rfl
theorem beq (rel : Byte) : Statement (.beq rel) := fun _ => rfl
theorem bne (rel : Byte) : Statement (.bne rel) := fun _ => rfl
theorem bmi (rel : Byte) : Statement (.bmi rel) := fun _ => rfl
theorem bpl (rel : Byte) : Statement (.bpl rel) := fun _ => rfl
theorem bvc (rel : Byte) : Statement (.bvc rel) := fun _ => rfl
theorem bvs (rel : Byte) : Statement (.bvs rel) := fun _ => rfl
theorem clc : Statement .clc := fun _ => rfl
theorem cld : Statement .cld := fun _ => rfl
theorem cli : Statement .cli := fun _ => rfl
theorem clv : Statement .clv := fun _ => rfl
theorem sec : Statement .sec := fun _ => rfl
theorem sed : Statement .sed := fun _ => rfl
theorem sei : Statement .sei := fun _ => rfl
theorem nop : Statement .nop := fun _ => rfl
theorem brk : Statement .brk := fun _ => rfl
theorem trap : Statement .trap := fun _ => rfl

end Sys2Proof.Laws.EncodedLength
end

