-- ==== Sys2Proof/Machine/Display.lean ====
section
/-! DEFINITION. The display format of a descriptor (R82): the assembler form of R81 and R102. It has no effect on execution
(R82); no step calls it. -/

namespace Sys2Proof.Machine

/-- The assembler's name of a mnemonic (R102: TRAP has no standard one and is written so). -/
def mnemonicName : Mnemonic → String
  | .LDA => "LDA"
  | .LDX => "LDX"
  | .LDY => "LDY"
  | .STA => "STA"
  | .STX => "STX"
  | .STY => "STY"
  | .TAX => "TAX"
  | .TAY => "TAY"
  | .TXA => "TXA"
  | .TYA => "TYA"
  | .TSX => "TSX"
  | .TXS => "TXS"
  | .PHA => "PHA"
  | .PHP => "PHP"
  | .PLA => "PLA"
  | .PLP => "PLP"
  | .ADC => "ADC"
  | .SBC => "SBC"
  | .CMP => "CMP"
  | .CPX => "CPX"
  | .CPY => "CPY"
  | .INC => "INC"
  | .DEC => "DEC"
  | .INX => "INX"
  | .INY => "INY"
  | .DEX => "DEX"
  | .DEY => "DEY"
  | .AND => "AND"
  | .ORA => "ORA"
  | .EOR => "EOR"
  | .BIT => "BIT"
  | .ASL => "ASL"
  | .LSR => "LSR"
  | .ROL => "ROL"
  | .ROR => "ROR"
  | .JMP => "JMP"
  | .JSR => "JSR"
  | .RTS => "RTS"
  | .RTI => "RTI"
  | .BCC => "BCC"
  | .BCS => "BCS"
  | .BEQ => "BEQ"
  | .BNE => "BNE"
  | .BMI => "BMI"
  | .BPL => "BPL"
  | .BVC => "BVC"
  | .BVS => "BVS"
  | .CLC => "CLC"
  | .CLD => "CLD"
  | .CLI => "CLI"
  | .CLV => "CLV"
  | .SEC => "SEC"
  | .SED => "SED"
  | .SEI => "SEI"
  | .NOP => "NOP"
  | .BRK => "BRK"
  | .TRAP => "TRAP"

/-- A digit of R102's hexadecimal numbers. -/
def hexDigit (n : Nat) : Char := if n < 10 then Char.ofNat (48 + n) else Char.ofNat (55 + n)

/-- A byte as two hexadecimal digits. -/
def hexByte (v : Byte) : String := String.ofList [hexDigit (v.toNat / 16), hexDigit (v.toNat % 16)]

/-- A two-byte operand as four hexadecimal digits: the second byte is the high one (R81). -/
def hexWord (lo hi : Byte) : String := hexByte hi ++ hexByte lo

/-- The operand as written in a mode (R81, R102), from the operand bytes; `after` is the address after the instruction, from
which a branch target counts (R95). -/
def displayOperand (m : Mode) (b1 b2 : Byte) (after : Addr) : String :=
  match m with
  | .IMP => ""
  | .ACC => " A"
  | .IMM => " #$" ++ hexByte b1
  | .ZP => " $" ++ hexByte b1
  | .ZPX => " $" ++ hexByte b1 ++ ",X"
  | .ZPY => " $" ++ hexByte b1 ++ ",Y"
  | .ABS => " $" ++ hexWord b1 b2
  | .ABSX => " $" ++ hexWord b1 b2 ++ ",X"
  | .ABSY => " $" ++ hexWord b1 b2 ++ ",Y"
  | .IND => " ($" ++ hexWord b1 b2 ++ ")"
  | .INDX => " ($" ++ hexByte b1 ++ ",X)"
  | .INDY => " ($" ++ hexByte b1 ++ "),Y"
  | .REL => " $" ++ hexWord (lowByte (after + b1.signExtend 16)) (highByte (after + b1.signExtend 16))

/-- An instruction at address `a` as text (R81, R102). Its operand bytes are those of its encoding. -/
def display (a : Addr) (i : Instr) : String :=
  let bytes := (encode 0x00#8 i).tail
  mnemonicName i.mnemonic ++
    displayOperand i.mode (bytes.getD 0 0x00#8) (bytes.getD 1 0x00#8) (a + BitVec.ofNat 16 (1 + bytes.length))

/-- The row the assembler takes for a written absolute operand: "A zero-page form is chosen when the address is below 0x0100
and the instruction has a zero-page form" (R102). -/
def assembledForm : Instr → Instr
  | .ldaAbs w => if w.toNat < 256 then .ldaZp (lowByte w) else .ldaAbs w
  | .ldxAbs w => if w.toNat < 256 then .ldxZp (lowByte w) else .ldxAbs w
  | .ldyAbs w => if w.toNat < 256 then .ldyZp (lowByte w) else .ldyAbs w
  | .staAbs w => if w.toNat < 256 then .staZp (lowByte w) else .staAbs w
  | .stxAbs w => if w.toNat < 256 then .stxZp (lowByte w) else .stxAbs w
  | .styAbs w => if w.toNat < 256 then .styZp (lowByte w) else .styAbs w
  | .adcAbs w => if w.toNat < 256 then .adcZp (lowByte w) else .adcAbs w
  | .sbcAbs w => if w.toNat < 256 then .sbcZp (lowByte w) else .sbcAbs w
  | .cmpAbs w => if w.toNat < 256 then .cmpZp (lowByte w) else .cmpAbs w
  | .cpxAbs w => if w.toNat < 256 then .cpxZp (lowByte w) else .cpxAbs w
  | .cpyAbs w => if w.toNat < 256 then .cpyZp (lowByte w) else .cpyAbs w
  | .incAbs w => if w.toNat < 256 then .incZp (lowByte w) else .incAbs w
  | .decAbs w => if w.toNat < 256 then .decZp (lowByte w) else .decAbs w
  | .andAbs w => if w.toNat < 256 then .andZp (lowByte w) else .andAbs w
  | .oraAbs w => if w.toNat < 256 then .oraZp (lowByte w) else .oraAbs w
  | .eorAbs w => if w.toNat < 256 then .eorZp (lowByte w) else .eorAbs w
  | .bitAbs w => if w.toNat < 256 then .bitZp (lowByte w) else .bitAbs w
  | .aslAbs w => if w.toNat < 256 then .aslZp (lowByte w) else .aslAbs w
  | .lsrAbs w => if w.toNat < 256 then .lsrZp (lowByte w) else .lsrAbs w
  | .rolAbs w => if w.toNat < 256 then .rolZp (lowByte w) else .rolAbs w
  | .rorAbs w => if w.toNat < 256 then .rorZp (lowByte w) else .rorAbs w
  | .ldaAbsX w => if w.toNat < 256 then .ldaZpX (lowByte w) else .ldaAbsX w
  | .ldyAbsX w => if w.toNat < 256 then .ldyZpX (lowByte w) else .ldyAbsX w
  | .adcAbsX w => if w.toNat < 256 then .adcZpX (lowByte w) else .adcAbsX w
  | .sbcAbsX w => if w.toNat < 256 then .sbcZpX (lowByte w) else .sbcAbsX w
  | .cmpAbsX w => if w.toNat < 256 then .cmpZpX (lowByte w) else .cmpAbsX w
  | .incAbsX w => if w.toNat < 256 then .incZpX (lowByte w) else .incAbsX w
  | .decAbsX w => if w.toNat < 256 then .decZpX (lowByte w) else .decAbsX w
  | .andAbsX w => if w.toNat < 256 then .andZpX (lowByte w) else .andAbsX w
  | .oraAbsX w => if w.toNat < 256 then .oraZpX (lowByte w) else .oraAbsX w
  | .eorAbsX w => if w.toNat < 256 then .eorZpX (lowByte w) else .eorAbsX w
  | .aslAbsX w => if w.toNat < 256 then .aslZpX (lowByte w) else .aslAbsX w
  | .lsrAbsX w => if w.toNat < 256 then .lsrZpX (lowByte w) else .lsrAbsX w
  | .rolAbsX w => if w.toNat < 256 then .rolZpX (lowByte w) else .rolAbsX w
  | .rorAbsX w => if w.toNat < 256 then .rorZpX (lowByte w) else .rorAbsX w
  | .staAbsX w => if w.toNat < 256 then .staZpX (lowByte w) else .staAbsX w
  | .ldxAbsY w => if w.toNat < 256 then .ldxZpY (lowByte w) else .ldxAbsY w
  | i => i

/-- The offset byte the assembler writes for a branch at `a` to `target` (R102). -/
def assembledOffset (a target : Addr) : Byte := lowByte (target - (a + 2))

end Sys2Proof.Machine
end

