-- ==== Sys2Proof/Tests/Slice0.lean ====
section
/-! SUPPORT. Tests: the smoke test of the well-formedness checks, words written out from the spec's encodings, one-step tests
(expected values from 95_test_vectors.md, whose vector a name ends in), and for every obligation with hypotheses a witness
that meets them. -/

namespace Sys2Proof.Tests

open Sys2Proof.Machine Sys2Proof.Said

/-! ## Helpers -/

/-- A memory with these bytes written. -/
def cells (l : List (Nat × Byte)) : Memory := l.foldr (fun p m => m.write p.1 p.2) []

/-- The flags C, Z, I, D, V, N, in the order of the vectors; B is 0. -/
def flags (c z i d v n : Nat) : Flags := ⟨c == 1, z == 1, i == 1, d == 1, false, v == 1, n == 1⟩

/-- The default start state of the vectors, with the code at `pc`: one RAM over the whole space. -/
def startAt (pc : Addr) (code : List Byte) (mem : List (Nat × Byte)) : State :=
  { State.reset with
    sp := 0xFF#8, pc := pc, flags := flags 0 0 1 0 0 0
    bus := placeBytes pc code ⟨[⟨0x0000#16, 65536, .ram (cells mem)⟩], []⟩ }

/-- The default start state of the vectors. -/
def start (code : List Byte) (mem : List (Nat × Byte)) : State := startAt 0x0600#16 code mem

/-- A state in which one peripheral with these queued answers is the whole bus. -/
def facing (reads : List Byte) (irqs : List Bool) : State :=
  { start [] [] with bus := ⟨[⟨0x0000#16, 65536, .peripheral ⟨reads, irqs, 0⟩⟩], []⟩ }

/-- What the state after one step says, where there is one. -/
def after {α : Type} (s : State) (k : State → α) : Option α :=
  match step s with
  | .next t => some (k t)
  | _ => none

/-- What a step that faults reports: a code (1 unknown opcode, 3 unimplemented, 4 no return), the byte, and the state left. -/
def stopped {α : Type} (s : State) (k : State → α) : Option (Nat × Byte × α) :=
  match step s with
  | .fault (.unknownOpcode op t) => some (1, op, k t)
  | .fault (.unimplemented op t) => some (3, op, k t)
  | .fault (.trapNeverReturns op t) => some (4, op, k t)
  | _ => none

/-- `exec` answers next. -/
def completes (i : Instr) (s : State) : Prop := ∃ t, exec i s = .next t

/-! ## The well-formedness checks refuse ill-formed terms -/

theorem test_smoke_documented_trapOpcode_refused : Params.wellFormed ⟨0xA9#8, .zero, []⟩ = false := by decide
theorem test_smoke_undocumented_trapOpcode_accepted : Params.wellFormed ⟨0xFF#8, .one, [0x0600#16]⟩ = true := by decide
theorem test_smoke_trap_without_an_opcode_refused : Instr.wellFormed 0xEA#8 .trap = false := by decide
theorem test_smoke_nop_needs_no_trapOpcode : Instr.wellFormed 0xEA#8 .nop = true := by decide
theorem test_smoke_oversized_image_refused : romImageFits 2 [0x01#8, 0x02#8, 0x03#8] = false := by decide
theorem test_smoke_smaller_image_accepted : romImageFits 2 [0x01#8] = true := by decide

/-- U19: a ROM file larger than its device, and a missing one, are launch errors. -/
theorem test_loadRom_refuses :
    (match loadRom 0xE000#16 1 .ignore (some [0x01#8, 0x02#8]) with | .error .imageTooLarge => true | _ => false) &&
      (match loadRom 0xE000#16 1 .ignore none with | .error .missingImage => true | _ => false) = true := by decide

/-- U10: a launch with a documented `TRAP_OPCODE` is refused. -/
theorem test_boot_refuses_illegal_trapOpcode :
    (match boot ⟨0x00#8, .zero, []⟩ [] [] [] ⟨0, 0, 0, 0, false, false, false, false, false, false⟩ with
      | .error .illegalTrapOpcode => true
      | _ => false) = true := by decide

/-- R264, R266: devices, then a patch, then reset from the vector the ROM holds; the patch at 0x0010's target is read. -/
theorem test_boot_maps_patches_resets :
    (match boot ⟨0x02#8, .zero, []⟩ []
        [.ok ⟨0x0000#16, 0x8000, .ram (cells [(0x0011, 0x04#8), (0x0012, 0xE0#8)])⟩,
          loadRom 0xE000#16 0x2000 .ignore (some [0xEA#8, 0xEA#8])]
        [(0x0010#16, [0x07#8])] ⟨1, 2, 3, 4, true, false, false, false, false, false⟩ with
      | .ok s => some (s.pc, s.a, s.bus.peek 0xE004#16, s.bus.peek 0xE000#16)
      | _ => none) = some (0x0000#16, 1#8, some 0x07#8, some 0xEA#8) := by decide

/-! ## Words written out from the spec's encodings -/

theorem test_decode_lda_absY : decode 0x02#8 [0xB9#8, 0xCD#8, 0xAB#8] = .instr (.ldaAbsY 0xABCD#16) [] := by decide
theorem test_decode_sty_zpX : decode 0x02#8 [0x94#8, 0x80#8] = .instr (.styZpX 0x80#8) [] := by decide
theorem test_decode_plp : decode 0x02#8 [0x28#8] = .instr .plp [] := by decide
theorem test_decode_sbc_indX : decode 0x02#8 [0xE1#8, 0x7F#8] = .instr (.sbcIndX 0x7F#8) [] := by decide
theorem test_decode_cpy_abs : decode 0x02#8 [0xCC#8, 0x01#8, 0x80#8] = .instr (.cpyAbs 0x8001#16) [] := by decide
theorem test_decode_ror_absX : decode 0x02#8 [0x7E#8, 0xFF#8, 0x00#8] = .instr (.rorAbsX 0x00FF#16) [] := by decide
theorem test_decode_jsr_leaves_the_rest :
    decode 0x02#8 [0x20#8, 0x34#8, 0x12#8, 0xEA#8] = .instr (.jsr 0x1234#16) [0xEA#8] := by decide
theorem test_decode_bvs : decode 0x02#8 [0x70#8, 0x80#8] = .instr (.bvs 0x80#8) [] := by decide
theorem test_decode_trap : decode 0x03#8 [0x03#8] = .instr .trap [] := by decide
theorem test_decode_unknown : decode 0x03#8 [0x02#8] = .unknownOpcode 0x02#8 := by decide
theorem test_decode_short_stream : decode 0x02#8 [0xAD#8, 0x00#8] = .truncated := by decide

/-- R99: the bytes without a row are exactly those listed, and no byte has two rows. -/
theorem test_table_covers_the_documented_bytes :
    (∀ op : Byte, (opcodeTable.any fun r => r.opcode == op) = !trapOpcodeLegal op) ∧
      (opcodeTable.map Row.opcode).Nodup := by decide +kernel

/-- R99: 105 undocumented values and 151 rows make 256. -/
theorem test_table_counts : undocumentedOpcodes.length = 105 ∧ opcodeTable.length = 151 := by decide +kernel

/-- A table word: bit 0 is the least significant bit of the first byte. -/
theorem test_decodeTableWord : decodeTableWord 24 0x1234AD = some (.ldaAbs 0x1234#16) := by decide
theorem test_withFetchWord_runs : after (State.reset.withFetchWord 16 0x80A9) (fun t => (t.a, t.pc)) =
    some (0x80#8, 0x0002#16) := by decide
theorem test_withFetchWord_over_rom : after (State.withFetchWord { State.reset with
      bus := ⟨[⟨0x0000#16, 1, .rom [] .ignore⟩], []⟩ } 24 0x0010AD) (fun t => (t.a, t.pc)) =
    some (0x00#8, 0x0003#16) := by decide

/-! ## The display format (R81, R102) -/

theorem test_display_branch_target : display 0x0608#16 (.bne 0xFB#8) = "BNE $0605" := by decide
theorem test_display_modes : [display 0 (.ldaImm 0x80#8), display 0 (.staIndY 0x2F#8), display 0 (.jmpInd 0x02FF#16),
    display 0 .aslAcc, display 0 (.ldxZpY 0x0A#8), display 0 .trap] =
    ["LDA #$80", "STA ($2F),Y", "JMP ($02FF)", "ASL A", "LDX $0A,Y", "TRAP"] := by decide
theorem test_assembler_takes_zero_page : assembledForm (.ldaAbsX 0x00FF#16) = .ldaZpX 0xFF#8 ∧
    assembledForm (.ldaAbsX 0x0100#16) = .ldaAbsX 0x0100#16 ∧ assembledForm (.ldaAbsY 0x0010#16) = .ldaAbsY 0x0010#16 := by
  decide
theorem test_assembler_offset : assembledOffset 0x0608#16 0x0605#16 = 0xFB#8 := by decide

/-! ## One step of each instruction -/

/-! ### Loads and stores (R120-R125) -/

theorem test_lda_V41_8 :
    after { start [0xA1#8, 0xFF#8] [(0x00FF, 0x34#8), (0x0100, 0x12#8), (0x1234, 0x56#8)] with x := 0x00#8 } (fun t => (t.a, t.flags)) =
      some (0x56#8, flags 0 0 1 0 0 0) := by decide
theorem test_lda_V41_10 :
    after { start [0xB1#8, 0x10#8] [(0x0010, 0xFF#8), (0x0011, 0xFF#8), (0x00FE, 0x3C#8)] with y := 0xFF#8 } (fun t => (t.a, t.flags)) =
      some (0x3C#8, flags 0 0 1 0 0 0) := by decide
theorem test_ldx_V41_5 :
    after { start [0xB6#8, 0xFF#8] [(0x0001, 0x90#8)] with y := 0x02#8 } (fun t => (t.x, t.flags)) =
      some (0x90#8, flags 0 0 1 0 0 1) := by decide
theorem test_ldy_V41_4 :
    after { start [0xB4#8, 0x10#8] [(0x0005, 0x42#8)] with x := 0xF5#8 } (fun t => (t.y, t.flags)) =
      some (0x42#8, flags 0 0 1 0 0 0) := by decide
theorem test_sta_V41_12 :
    after { start [0x8D#8, 0x00#8, 0x02#8] [] with a := 0x99#8, flags := flags 0 1 1 0 0 1 } (fun t => (t.bus.peek 0x0200#16, t.flags)) =
      some (some 0x99#8, flags 0 1 1 0 0 1) := by decide
theorem test_sta_V41_15 :
    after { start [0x91#8, 0x20#8] [(0x0020, 0xF8#8), (0x0021, 0x02#8)] with a := 0x77#8, y := 0x10#8 } (fun t => (t.bus.peek 0x0308#16, t.flags)) =
      some (some 0x77#8, flags 0 0 1 0 0 0) := by decide
theorem test_stx_V41_13 :
    after { start [0x96#8, 0xFF#8] [] with x := 0xAB#8, y := 0x03#8 } (fun t => (t.bus.peek 0x0002#16, t.flags)) =
      some (some 0xAB#8, flags 0 0 1 0 0 0) := by decide
theorem test_sty_V41_14 :
    after { start [0x94#8, 0x80#8] [] with y := 0x5A#8, x := 0x90#8 } (fun t => (t.bus.peek 0x0010#16, t.flags)) =
      some (some 0x5A#8, flags 0 0 1 0 0 0) := by decide

/-! ### Transfers and the stack (R130-R139) -/

theorem test_tax_V42_1 :
    after { start [0xAA#8] [] with a := 0x80#8 } (fun t => (t.x, t.flags)) =
      some (0x80#8, flags 0 0 1 0 0 1) := by decide
theorem test_tay_V42_2 :
    after { start [0xA8#8] [] with a := 0x00#8, y := 0x12#8 } (fun t => (t.y, t.flags)) =
      some (0x00#8, flags 0 1 1 0 0 0) := by decide
theorem test_txa_V42_3 :
    after { start [0x8A#8] [] with x := 0x7F#8, a := 0x80#8, flags := flags 0 0 1 0 0 1 } (fun t => (t.a, t.flags)) =
      some (0x7F#8, flags 0 0 1 0 0 0) := by decide
theorem test_tya_V42_4 :
    after { start [0x98#8] [] with y := 0xFE#8 } (fun t => (t.a, t.flags)) =
      some (0xFE#8, flags 0 0 1 0 0 1) := by decide
theorem test_tsx_V42_5 :
    after { start [0xBA#8] [] with sp := 0x00#8, x := 0x44#8 } (fun t => (t.x, t.flags)) =
      some (0x00#8, flags 0 1 1 0 0 0) := by decide
theorem test_txs_V42_6 :
    after { start [0x9A#8] [] with x := 0x00#8, flags := flags 0 0 1 0 0 1 } (fun t => (t.sp, t.flags)) =
      some (0x00#8, flags 0 0 1 0 0 1) := by decide
theorem test_pha_V42_8 :
    after { start [0x48#8] [] with a := 0x11#8, sp := 0x00#8 } (fun t => (t.sp, t.bus.peek 0x0100#16, t.flags)) =
      some (0xFF#8, some 0x11#8, flags 0 0 1 0 0 0) := by decide
theorem test_pla_V42_9 :
    after { start [0x68#8] [(0x0100, 0x80#8)] with sp := 0xFF#8 } (fun t => (t.a, t.sp, t.flags)) =
      some (0x80#8, 0x00#8, flags 0 0 1 0 0 1) := by decide
theorem test_php_V42_13 :
    after { start [0x08#8] [] with sp := 0x80#8, flags := flags 1 1 1 1 1 1 } (fun t => (t.sp, t.bus.peek 0x0180#16, t.flags)) =
      some (0x7F#8, some 0xEF#8, flags 1 1 1 1 1 1) := by decide
theorem test_plp_V42_14 :
    after { start [0x28#8] [(0x01FF, 0xFF#8)] with sp := 0xFE#8 } (fun t => (t.sp, t.flags)) =
      some (0xFF#8, flags 1 1 1 1 1 1) := by decide
theorem test_plp_V42_15 :
    after { start [0x28#8] [(0x01FF, 0x30#8)] with sp := 0xFE#8, flags := flags 1 1 1 0 0 1 } (fun t => (t.sp, t.flags)) =
      some (0xFF#8, flags 0 0 0 0 0 0) := by decide

/-! ### Arithmetic (R150-R162) -/

theorem test_adc_V43_3 :
    after { start [0x69#8, 0x00#8] [] with a := 0x7F#8, flags := flags 1 0 1 0 0 0 } (fun t => (t.a, t.flags)) =
      some (0x80#8, flags 0 0 1 0 1 1) := by decide
theorem test_adc_V43_6 :
    after { start [0x69#8, 0x01#8] [] with a := 0x09#8, flags := flags 0 0 1 1 0 0 } (fun t => (t.a, t.flags)) =
      some (0x0A#8, flags 0 0 1 1 0 0) := by decide
theorem test_sbc_V43_9 :
    after { start [0xE9#8, 0x50#8] [] with a := 0xF0#8, flags := flags 1 0 1 0 0 0 } (fun t => (t.a, t.flags)) =
      some (0xA0#8, flags 1 0 1 0 0 1) := by decide
theorem test_sbc_V43_13 :
    after { start [0xE9#8, 0x03#8] [] with a := 0x05#8 } (fun t => (t.a, t.flags)) =
      some (0x01#8, flags 1 0 1 0 0 0) := by decide
theorem test_cmp_V43_17 :
    after { start [0xC9#8, 0x20#8] [] with a := 0x10#8, flags := flags 1 0 1 0 0 0 } (fun t => t.flags) =
      some (flags 0 0 1 0 0 1) := by decide
theorem test_cmp_V43_19 :
    after { start [0xC9#8, 0x00#8] [] with a := 0x80#8 } (fun t => t.flags) =
      some (flags 1 0 1 0 0 1) := by decide
theorem test_cpx_V43_20 :
    after { start [0xE4#8, 0x10#8] [(0x0010, 0x01#8)] with x := 0xFF#8 } (fun t => t.flags) =
      some (flags 1 0 1 0 0 1) := by decide
theorem test_cpy_V43_21 :
    after { start [0xC0#8, 0x41#8] [] with y := 0x40#8, flags := flags 1 0 1 0 0 0 } (fun t => t.flags) =
      some (flags 0 0 1 0 0 1) := by decide
theorem test_inc_V43_22 :
    after { start [0xE6#8, 0x10#8] [(0x0010, 0xFF#8)] with flags := flags 1 0 1 0 0 0 } (fun t => (t.bus.peek 0x0010#16, t.flags)) =
      some (some 0x00#8, flags 1 1 1 0 0 0) := by decide
theorem test_inc_V43_24 :
    after { start [0xFE#8, 0x34#8, 0x12#8] [(0x1235, 0x7F#8)] with x := 0x01#8 } (fun t => (t.bus.peek 0x1235#16, t.flags)) =
      some (some 0x80#8, flags 0 0 1 0 0 1) := by decide
theorem test_dec_V43_23 :
    after { start [0xD6#8, 0x10#8] [(0x0000, 0x00#8)] with x := 0xF0#8 } (fun t => (t.bus.peek 0x0000#16, t.flags)) =
      some (some 0xFF#8, flags 0 0 1 0 0 1) := by decide
theorem test_inx_V43_25 :
    after { start [0xE8#8] [] with x := 0xFF#8 } (fun t => (t.x, t.flags)) =
      some (0x00#8, flags 0 1 1 0 0 0) := by decide
theorem test_iny_V43_26 :
    after { start [0xC8#8] [] with y := 0x7F#8 } (fun t => (t.y, t.flags)) =
      some (0x80#8, flags 0 0 1 0 0 1) := by decide
theorem test_dex_V43_27 :
    after { start [0xCA#8] [] with x := 0x00#8 } (fun t => (t.x, t.flags)) =
      some (0xFF#8, flags 0 0 1 0 0 1) := by decide
theorem test_dey_V43_28 :
    after { start [0x88#8] [] with y := 0x80#8, flags := flags 0 0 1 0 0 1 } (fun t => (t.y, t.flags)) =
      some (0x7F#8, flags 0 0 1 0 0 0) := by decide

/-! ### Logic and shifts (R170-R178) -/

theorem test_ora_V44_1 :
    after { start [0x09#8, 0x70#8] [] with a := 0x0F#8 } (fun t => (t.a, t.flags)) =
      some (0x7F#8, flags 0 0 1 0 0 0) := by decide
theorem test_eor_V44_3 :
    after { start [0x49#8, 0x7F#8] [] with a := 0xFF#8 } (fun t => (t.a, t.flags)) =
      some (0x80#8, flags 0 0 1 0 0 1) := by decide
theorem test_and_V44_4 :
    after { start [0x21#8, 0x10#8] [(0x0012, 0x00#8), (0x0013, 0x03#8), (0x0300, 0x81#8)] with a := 0xFF#8, x := 0x02#8 } (fun t => (t.a, t.flags)) =
      some (0x81#8, flags 0 0 1 0 0 1) := by decide
theorem test_bit_V44_5 :
    after { start [0x24#8, 0x10#8] [(0x0010, 0xC0#8)] with a := 0x0F#8 } (fun t => t.flags) =
      some (flags 0 1 1 0 1 1) := by decide
theorem test_bit_V44_6 :
    after { start [0x2C#8, 0x00#8, 0x10#8] [(0x1000, 0x01#8)] with a := 0x01#8, flags := flags 0 1 1 0 1 1 } (fun t => t.flags) =
      some (flags 0 0 1 0 0 0) := by decide
theorem test_rol_V44_9 :
    after { start [0x2A#8] [] with a := 0x80#8 } (fun t => (t.a, t.flags)) =
      some (0x00#8, flags 1 1 1 0 0 0) := by decide
theorem test_rol_V44_10 :
    after { start [0x2A#8] [] with a := 0x40#8, flags := flags 1 0 1 0 0 0 } (fun t => (t.a, t.flags)) =
      some (0x81#8, flags 0 0 1 0 0 1) := by decide
theorem test_ror_V44_11 :
    after { start [0x6A#8] [] with a := 0x01#8, flags := flags 1 0 1 0 0 0 } (fun t => (t.a, t.flags)) =
      some (0x80#8, flags 1 0 1 0 0 1) := by decide
theorem test_ror_V44_13 :
    after (start [0x66#8, 0x10#8] [(0x0010, 0x02#8)]) (fun t => (t.bus.peek 0x0010#16, t.flags)) =
      some (some 0x01#8, flags 0 0 1 0 0 0) := by decide
theorem test_asl_V44_12 :
    after (start [0x06#8, 0x10#8] [(0x0010, 0x41#8)]) (fun t => (t.bus.peek 0x0010#16, t.flags)) =
      some (some 0x82#8, flags 0 0 1 0 0 1) := by decide
theorem test_lsr_V44_8 :
    after { start [0x4A#8] [] with a := 0x01#8, flags := flags 0 0 1 0 0 1 } (fun t => (t.a, t.flags)) =
      some (0x00#8, flags 1 1 1 0 0 0) := by decide
theorem test_lsr_V44_14 :
    after { start [0x5E#8, 0x00#8, 0x10#8] [(0x1005, 0xFF#8)] with x := 0x05#8 } (fun t => (t.bus.peek 0x1005#16, t.flags)) =
      some (some 0x7F#8, flags 1 0 1 0 0 0) := by decide
theorem test_asl_V44_7 :
    after { start [0x0A#8] [] with a := 0x80#8 } (fun t => (t.a, t.flags)) =
      some (0x00#8, flags 1 1 1 0 0 0) := by decide

/-! ### Control (R190-R205) -/

theorem test_jmp_V45_1 :
    after (start [0x4C#8, 0x34#8, 0x12#8] []) (fun t => t.pc) =
      some 0x1234#16 := by decide
theorem test_jmp_V45_2 :
    after (start [0x6C#8, 0xFF#8, 0x02#8] [(0x02FF, 0x00#8), (0x0300, 0x07#8), (0x0200, 0x99#8)]) (fun t => t.pc) =
      some 0x0700#16 := by decide
theorem test_jsr_V45_4 :
    after { start [0x20#8, 0x34#8, 0x12#8] [] with sp := 0x00#8 } (fun t => (t.pc, t.sp, t.bus.peek 0x0100#16, t.bus.peek 0x01FF#16)) =
      some (0x1234#16, 0xFE#8, some 0x06#8, some 0x02#8) := by decide
theorem test_rts_V45_5 :
    after { start [0x60#8] [(0x01FE, 0x02#8), (0x01FF, 0x06#8)] with sp := 0xFD#8 } (fun t => (t.pc, t.sp)) =
      some (0x0603#16, 0xFF#8) := by decide
theorem test_rti_V45_6 :
    after { start [0x40#8] [(0x01FD, 0xC3#8), (0x01FE, 0x34#8), (0x01FF, 0x12#8)] with sp := 0xFC#8, inIRQ := true } (fun t => (t.pc, t.sp, t.inIRQ, t.flags)) =
      some (0x1234#16, 0xFF#8, false, flags 1 1 0 0 1 1) := by decide
theorem test_rti_V45_7 :
    after { start [0x40#8] [(0x01FD, 0xFF#8), (0x01FE, 0x03#8), (0x01FF, 0x06#8)] with sp := 0xFC#8, inIRQ := true, flags := flags 0 0 0 0 0 0 } (fun t => (t.pc, t.sp, t.inIRQ, t.flags)) =
      some (0x0603#16, 0xFF#8, false, flags 1 1 1 1 1 1) := by decide
theorem test_bne_V45_9 :
    after { start [0xD0#8, 0x05#8] [] with flags := flags 0 1 1 0 0 0 } (fun t => t.pc) =
      some 0x0602#16 := by decide
theorem test_beq_V45_10 :
    after { start [0xF0#8, 0xFE#8] [] with flags := flags 0 1 1 0 0 0 } (fun t => t.pc) =
      some 0x0600#16 := by decide
theorem test_bpl_V45_11 :
    after (start [0x10#8, 0x80#8] []) (fun t => t.pc) =
      some 0x0582#16 := by decide
theorem test_bmi_V45_12 :
    after { start [0x30#8, 0x7F#8] [] with flags := flags 0 0 1 0 0 1 } (fun t => t.pc) =
      some 0x0681#16 := by decide
theorem test_bcc_V45_13 :
    after (startAt 0xFFF0#16 [0x90#8, 0x20#8] []) (fun t => t.pc) =
      some 0x0012#16 := by decide
theorem test_bcs_V45_14 :
    after { startAt 0x0000#16 [0xB0#8, 0xFD#8] [] with flags := flags 1 0 1 0 0 0 } (fun t => t.pc) =
      some 0xFFFF#16 := by decide
theorem test_bvs_V45_15 :
    after { start [0x70#8, 0x00#8] [] with flags := flags 0 0 1 0 1 0 } (fun t => t.pc) =
      some 0x0602#16 := by decide
theorem test_bvc_V45_16 :
    after { start [0x50#8, 0x04#8] [] with flags := flags 0 0 1 0 1 0 } (fun t => t.pc) =
      some 0x0602#16 := by decide

/-! ### Flags and NOP (R210-R217) -/

theorem test_clc_V46_1 :
    after { start [0x18#8] [] with flags := flags 1 0 1 0 0 0 } (fun t => t.flags) =
      some (flags 0 0 1 0 0 0) := by decide
theorem test_sec_V46_2 :
    after (start [0x38#8] []) (fun t => t.flags) =
      some (flags 1 0 1 0 0 0) := by decide
theorem test_cli_V46_3 :
    after (start [0x58#8] []) (fun t => t.flags) =
      some (flags 0 0 0 0 0 0) := by decide
theorem test_sei_V46_4 :
    after { start [0x78#8] [] with flags := flags 0 0 0 0 0 0 } (fun t => t.flags) =
      some (flags 0 0 1 0 0 0) := by decide
theorem test_cld_V46_5 :
    after { start [0xD8#8] [] with flags := flags 0 0 1 1 0 0 } (fun t => t.flags) =
      some (flags 0 0 1 0 0 0) := by decide
theorem test_sed_V46_6 :
    after (start [0xF8#8] []) (fun t => t.flags) =
      some (flags 0 0 1 1 0 0) := by decide
theorem test_clv_V46_7 :
    after { start [0xB8#8] [] with flags := flags 0 0 1 0 1 0 } (fun t => t.flags) =
      some (flags 0 0 1 0 0 0) := by decide
theorem test_nop_V46_8 :
    after (start [0xEA#8] []) (fun t => t.pc) =
      some 0x0601#16 := by decide

/-! ### BRK, TRAP, unknown opcodes (R96, R218-R220) -/

theorem test_brk_V46_9 : stopped (start [0x00#8] []) (fun t => (t.pc, t.sp, t.icount)) =
    some (3, 0x00#8, 0x0601#16, 0xFF#8, 0) := by decide
theorem test_unknown_V46_11 : stopped (start [0xFF#8] []) (fun t => (t.pc, t.icount)) =
    some (1, 0xFF#8, 0x0601#16, 0) := by decide
theorem test_unknown_V30_5 : ∀ op ∈ [0x80#8, 0x89#8, 0x9C#8, 0x9E#8, 0x1A#8, 0x3A#8, 0x5A#8, 0x7A#8, 0xDA#8, 0xFA#8],
    stopped (start [op] []) (fun t => t.pc) = some (1, op, 0x0601#16) := by decide

/-- The callback of V46.10: it writes 0x42 to 0x0300, sets A and C to 0 and returns. -/
def fixture : TrapReturn := ⟨[.write 0x0300#16 0x42#8], 0x00#8, 0x00#8, 0x00#8, false, false, true, false, false, false⟩

theorem test_trap_V46_10 :
    after { start [0x02#8] [] with a := 0x01#8, flags := flags 1 0 1 0 0 0, trapQueue := [.returns fixture] }
      (fun t => (t.a, t.pc, t.flags, t.bus.peek 0x0300#16, t.trapCalls)) =
    some (0x00#8, 0x0601#16, flags 0 0 1 0 0 0, some 0x42#8, [0x01#8]) := by decide
theorem test_trap_never_returns :
    stopped { start [0x02#8] [] with a := 0x07#8, trapQueue := [.neverReturns] } (fun t => t.pc) =
    some (4, 0x07#8, 0x0601#16) := by decide

/-! ## The fetch, the bus and the stack -/

theorem test_fetch_wraps_V30_2 : after (startAt 0xFFFD#16 [0xAD#8, 0xFF#8, 0xFF#8] []) (fun t => (t.a, t.pc)) =
    some (0xFF#8, 0x0000#16) := by decide

/-- The bus of example S4: D1 below, D2 mapped last. -/
def twoRams : Bus :=
  Bus.map ⟨0x1000#16, 0x100, .ram (cells [(0x1010, 0x22#8)])⟩
    (Bus.map ⟨0x0000#16, 65536, .ram (cells [(0x1010, 0x11#8)])⟩ ⟨[], []⟩)

theorem test_priority_V20_1 : (twoRams.read 0x1010#16).1 = 0x22#8 := by decide
theorem test_write_reaches_both_V20_2 :
    ((twoRams.write 0x1010#16 0x5A#8).heldBy 0 0x1010#16, (twoRams.write 0x1010#16 0x5A#8).heldBy 1 0x1010#16) =
    (some 0x5A#8, some 0x5A#8) := by decide
theorem test_open_bus_V20_3 : ((⟨[⟨0x0000#16, 0x8000, .ram []⟩], []⟩ : Bus).read 0x9000#16).1 = 0x00#8 := by decide
theorem test_word_wraps_V20_4 :
    ((start [] [(0xFFFF, 0x34#8), (0x0000, 0x12#8)]).readWord 0xFFFF#16).1 = 0x1234#16 := by decide
theorem test_rom_ignores_V20_5 :
    (((⟨[⟨0xE000#16, 0x2000, .rom (cells [(0xE010, 0xAB#8)]) .ignore⟩], []⟩ : Bus).write 0xE010#16 0x00#8).read
      0xE010#16).1 = 0xAB#8 := by decide
theorem test_rom_stores_V20_6 :
    (((⟨[⟨0xE000#16, 0x2000, .rom (cells [(0xE010, 0xAB#8)]) .store⟩], []⟩ : Bus).write 0xE010#16 0x00#8).read
      0xE010#16).1 = 0x00#8 := by decide
theorem test_contains_V20_7 :
    ((⟨0xFFF0#16, 0x20, .ram []⟩ : Device).contains 0xFFFF#16, (⟨0xFFF0#16, 0x20, .ram []⟩ : Device).contains 0x0000#16,
      (⟨0x0000#16, 0, .ram []⟩ : Device).contains 0x0000#16) = (true, false, false) := by decide
theorem test_pop16_V20_9 :
    let w := State.pop16 { start [] [(0x01FF, 0x34#8), (0x0100, 0x12#8)] with sp := 0xFE#8 }
    (w.1, w.2.sp) = (0x1234#16, 0x00#8) := by decide
theorem test_push16_V20_10 :
    let t := State.push16 0x0603#16 { start [] [] with sp := 0x00#8 }
    (t.sp, t.bus.peek 0x0100#16, t.bus.peek 0x01FF#16) = (0xFE#8, some 0x06#8, some 0x03#8) := by decide
theorem test_write_of_the_unlisted_byte_removes_the_entry :
    Memory.write 0x0010 0x00#8 (cells [(0x0010, 0x01#8), (0x0020, 0x02#8)]) = [(0x0020, 0x02#8)] := by decide
theorem test_getByte_V10_2 : (flags 1 0 1 0 0 1).getByte = 0xA5#8 := by decide
theorem test_setByte_V10_4 : (flags 1 1 1 1 1 1).setByte 0x10#8 = flags 0 0 0 0 0 0 := by decide

/-- R98: a peripheral sees the fetches, the pointer's low and high byte, and the data read, in that order. -/
theorem test_access_order_R98 :
    after (facing [0xB1#8, 0x10#8, 0x34#8, 0x12#8, 0x99#8] [false]) (fun t => (t.a, t.bus.calls)) =
    some (0x99#8, [⟨0, .read 0x1234#16 0x99#8⟩, ⟨0, .read 0x0011#16 0x12#8⟩, ⟨0, .read 0x0010#16 0x34#8⟩,
      ⟨0, .read 0x0601#16 0x10#8⟩, ⟨0, .read 0x0600#16 0xB1#8⟩]) := by decide

/-! ## The interrupt and reset -/

/-- The start of V60.1 to V60.6. -/
def interrupted : State :=
  { startAt 0x0603#16 [] [(0xFFFE, 0x00#8), (0xFFFF, 0x07#8), (0x0700, 0x40#8)] with flags := flags 0 0 0 0 0 0 }

theorem test_interrupt_V60_1 :
    let t := State.interrupt { interrupted with flags := flags 1 0 0 0 0 0 }
    (t.pc, t.sp, t.inIRQ, t.bus.peek 0x01FF#16, t.bus.peek 0x01FE#16, t.bus.peek 0x01FD#16) =
    (0x0700#16, 0xFC#8, true, some 0x06#8, some 0x03#8, some 0x21#8) := by decide
theorem test_interrupt_masked_V60_3 :
    State.interrupt { interrupted with inIRQ := true } = { interrupted with inIRQ := true } := by decide
theorem test_interrupt_bias_then_rti_V60_6 :
    let t := State.interrupt { interrupted with params := ⟨0x02#8, .one, []⟩ }
    (t.bus.peek 0x01FE#16, after t (fun u => (u.pc, u.inIRQ, u.sp))) =
    (some 0x02#8, some (0x0603#16, false, 0xFF#8)) := by decide

/-- A RAM over the whole space, and above it a one-byte peripheral that requests an interrupt. -/
def requesting (s : State) : State := { s with bus := s.bus.map ⟨0xD000#16, 1, .peripheral ⟨[], [true], 0⟩⟩ }

theorem test_cli_lets_the_interrupt_in_V70_4 :
    after (requesting (start [0x58#8] [(0xFFFF, 0x07#8)])) (fun t => (t.pc, t.bus.peek 0x01FE#16, t.icount)) =
    some (0x0700#16, some 0x01#8, 1) := by decide
theorem test_sei_keeps_it_out_V70_5 :
    after (requesting { start [0x78#8] [(0xFFFF, 0x07#8)] with flags := flags 0 0 0 0 0 0 }) (fun t => (t.pc, t.sp)) =
    some (0x0601#16, 0xFF#8) := by decide

/-- The draws of `State.reset` (log 3, log 4). -/
def noDraws : ResetDraws := ⟨0, 0, 0, 0, false, false, false, false, false, false⟩

theorem test_reset_V70_1 :
    let t := State.resetWith noDraws { start [] [(0xFFFC, 0x00#8), (0xFFFD, 0xE0#8)] with icount := 9, inIRQ := true }
    (t.pc, t.icount, t.inIRQ, t.bus.peek 0xFFFD#16) = (0xE000#16, 0, false, some 0xE0#8) := by decide

/-- `State.reset` is what `Reset()` makes of the reset devices and parameters (R260). -/
theorem test_reset_is_a_reset : State.reset.resetWith noDraws = State.reset := by decide

/-! ## Witnesses: every obligation with hypotheses is about something -/

theorem test_witness_legal_trapOpcode : trapOpcodeLegal 0x02#8 = true ∧ trapOpcodeLegal 0xFF#8 = true := by decide
theorem test_witness_a_decoded_instruction :
    trapOpcodeLegal 0xFF#8 = true ∧ decode 0xFF#8 [0x8D#8, 0x34#8, 0x12#8, 0x00#8] = .instr (.staAbs 0x1234#16) [0x00#8] := by
  decide
theorem test_witness_no_descriptor :
    descriptor 0x02#8 0xFF#8 = none ∧ (0xFF#8).toNat ∈ undocumentedOpcodes ∧ (0xFF#8 : Byte) ≠ 0x02#8 := by decide
theorem test_witness_bytes_at_pc_decode :
    decode 0x02#8 ((start [0xAD#8, 0x34#8, 0x12#8] []).fetchBytes 3).1 = .instr (.ldaAbs 0x1234#16) [] := by decide
theorem test_witness_memory_at_pc :
    (start [0xA9#8, 0x05#8] []).bus.peek 0x0600#16 = some 0xA9#8 ∧
      (start [0xA9#8, 0x05#8] []).bus.peek (0x0600#16 + BitVec.ofNat 16 1) = some 0x05#8 := by decide
theorem test_witness_unknown_opcode_at_pc :
    ((start [0xFF#8] []).bus.read 0x0600#16).1.toNat ∈ undocumentedOpcodes ∧
      ((start [0xFF#8] []).bus.read 0x0600#16).1 ≠ (start [0xFF#8] []).params.trapOpcode := by decide
theorem test_witness_brk_at_pc :
    trapOpcodeLegal (start [] []).params.trapOpcode = true ∧ ((start [] []).bus.read 0x0600#16).1 = 0x00#8 := by decide
theorem test_witness_trap_returns :
    State.trapResponse { start [] [] with trapQueue := [.returns fixture] } = .returns fixture ∧
      completes .trap { start [] [] with trapQueue := [.returns fixture] } := ⟨rfl, _, rfl⟩
theorem test_witness_trap_never_returns :
    State.trapResponse { start [] [] with trapQueue := [.neverReturns, .returns fixture] } = .neverReturns := rfl
theorem test_witness_no_queued_response : (start [] []).trapQueue = [] := rfl
theorem test_witness_rti_completes : completes .rti (start [] []) := ⟨_, rfl⟩
theorem test_witness_nop_completes : completes .nop (start [] []) ∧ Instr.nop ≠ .rti := ⟨⟨_, rfl⟩, by decide⟩
theorem test_witness_a_step_that_completes : ∃ t, step (start [0xEA#8] []) = .next t ∧ (start [0xEA#8] []).Inv :=
  ⟨{ start [0xEA#8] [] with pc := 0x0601#16, icount := 1 }, by rfl, by decide, by decide, by decide⟩
theorem test_witness_adc_and_sbc : completes (.adcIndY 0xFF#8) (start [] []) ∧ completes (.sbcAbs 0x1234#16) (start [] []) ∧
    (∃ e ∈ codingsAdc 0xFF#8 0x34#8 0x12#8 ++ codingsSbc 0xFF#8 0x34#8 0x12#8, e.instr = .adcIndY 0xFF#8) ∧
    (∃ e ∈ codingsAdc 0xFF#8 0x34#8 0x12#8 ++ codingsSbc 0xFF#8 0x34#8 0x12#8, e.instr = .sbcAbs 0x1234#16) :=
  ⟨⟨_, rfl⟩, ⟨_, rfl⟩, by simp [codingsAdc, codingsSbc], by simp [codingsAdc, codingsSbc, joinBytes]⟩
theorem test_witness_reset_vector_in_memory :
    (start [] [(0xFFFC, 0x34#8), (0xFFFD, 0x12#8)]).bus.peek 0xFFFC#16 = some 0x34#8 ∧
      (start [] [(0xFFFC, 0x34#8), (0xFFFD, 0x12#8)]).bus.peek 0xFFFD#16 = some 0x12#8 := by decide
theorem test_witness_first_match :
    (∀ d ∈ [(⟨0x1000#16, 0x100, .ram []⟩ : Device)], d.contains 0x1100#16 = false) ∧
      (⟨0x0000#16, 65536, .ram []⟩ : Device).contains 0x1100#16 = true := by decide

/-- A device of every kind under one address, of both ROM policies, at the boundaries of their ranges, a peripheral that
answers and one that is shadowed. -/
def everyKind : Bus := ⟨[⟨0x00FF#16, 1, .peripheral ⟨[], [], 0⟩⟩, ⟨0x00FF#16, 1, .ram []⟩, ⟨0x00FF#16, 2, .rom [] .store⟩,
  ⟨0x0000#16, 0x100, .rom [] .ignore⟩, ⟨0x00FE#16, 2, .peripheral ⟨[], [], 0⟩⟩, ⟨0x0100#16, 1, .ram []⟩], []⟩

theorem test_witness_write_reaches_every_kind :
    everyKind.wf = true ∧ (everyKind.devices.map fun d => d.contains 0x00FF#16) = [true, true, true, true, true, false] ∧
      everyKind.devices[5]? = some ⟨0x0100#16, 1, .ram []⟩ := by decide
/-- R45, D19: both peripherals receive the write, the one of higher priority first. -/
theorem test_write_order_D19 : (everyKind.write 0x00FF#16 0x5A#8).calls =
    [⟨1, .write 0x00FF#16 0x5A#8⟩, ⟨5, .write 0x00FF#16 0x5A#8⟩] := by decide

/-- The RAM of the start state answers everywhere. -/
theorem test_witness_ram_everywhere (a : Addr) : (start [] []).bus.wf = true ∧ (start [] []).bus.ramAt a := by
  refine ⟨by decide, 0x0000#16, 65536, [], ?_⟩
  have h : (⟨0x0000#16, 65536, .ram []⟩ : Device).contains a = true := by
    simp only [Device.contains, Bool.and_eq_true, decide_eq_true_eq]
    exact ⟨Nat.zero_le _, by simpa using a.isLt⟩
  simp [start, startAt, placeBytes, cells, Bus.answering, h]
theorem test_witness_store_completes : completes (.staIndY 0xFF#8) (start [] []) := ⟨_, rfl⟩
theorem test_witness_fetch_seen_by_a_peripheral :
    OnlyPeripheral (facing [0xAD#8, 0x34#8, 0x12#8] []).bus ∧
      decode 0x02#8 ((facing [0xAD#8, 0x34#8, 0x12#8] []).fetchBytes 3).1 = .instr (.ldaAbs 0x1234#16) [] ∧
      completes (.ldaAbs 0x1234#16) ((facing [0xAD#8, 0x34#8, 0x12#8] []).fetchBytes 3).2 :=
  ⟨⟨_, rfl⟩, by decide, _, rfl⟩
theorem test_witness_only_peripheral :
    OnlyPeripheral (facing [] []).bus ∧ completes (.ldaIndX 0xFF#8) (facing [] []) ∧ completes (.ldaImm 0x00#8) (facing [] []) ∧
      completes (.incAbsX 0xFFFF#16) (facing [] []) ∧ completes .aslAcc (facing [] []) ∧
      completes (.aslZp 0x00#8) (facing [] []) ∧ completes (.staZp 0x00#8) (facing [] []) ∧
      completes (.jmpInd 0xFFFF#16) (facing [] []) ∧ completes (.jmpAbs 0x0000#16) (facing [] []) ∧
      completes .php (facing [] []) ∧ completes (.stxZpY 0x80#8) (facing [] []) ∧ completes (.styAbs 0x0000#16) (facing [] []) ∧
      completes .pha (facing [] []) ∧ completes .pla (facing [] []) ∧
      completes (.jsr 0x0000#16) (facing [] []) ∧ completes .rts (facing [] []) ∧ completes .rti (facing [] []) ∧
      completes .tax (facing [] []) :=
  ⟨⟨_, rfl⟩, ⟨_, rfl⟩, ⟨_, rfl⟩, ⟨_, rfl⟩, ⟨_, rfl⟩, ⟨_, rfl⟩, ⟨_, rfl⟩, ⟨_, rfl⟩, ⟨_, rfl⟩, ⟨_, rfl⟩, ⟨_, rfl⟩, ⟨_, rfl⟩,
    ⟨_, rfl⟩, ⟨_, rfl⟩, ⟨_, rfl⟩, ⟨_, rfl⟩, ⟨_, rfl⟩, ⟨_, rfl⟩⟩
theorem test_witness_push_then_pull :
    let s := { start [] [] with sp := 0x00#8 }
    ∃ t v, exec .pha s = .next t ∧ exec .pla t = .next v := ⟨_, _, rfl, rfl⟩
theorem test_witness_jsr_then_rts :
    let s := { start [] [] with sp := 0x00#8 }
    ∃ t u, exec (.jsr 0x1234#16) s = .next t ∧ exec .rts t = .next u := ⟨_, _, rfl, rfl⟩
theorem test_witness_branch_conditions :
    ∃ s t : State, s.flags = flags 0 0 0 0 0 0 ∧ t.flags = flags 1 1 1 1 1 1 :=
  ⟨{ start [] [] with flags := flags 0 0 0 0 0 0 }, { start [] [] with flags := flags 1 1 1 1 1 1 }, rfl, rfl⟩
theorem test_witness_interrupt_masked_or_taken :
    (start [] []).flags.i = true ∧ { start [] [] with inIRQ := true }.inIRQ = true ∧
      interrupted.flags.i = false ∧ interrupted.inIRQ = false := by decide
theorem test_witness_step_with_a_request :
    ∃ s, cpuStep (requesting (start [0xEA#8] [])) = .next s ∧ s.bus.poll.1 = true := ⟨_, rfl, by decide⟩
theorem test_witness_interrupt_then_rti :
    interrupted.bus.wf = true ∧ interrupted.flags.i = false ∧ interrupted.inIRQ = false ∧ interrupted.flags.b = false ∧
      interrupted.interrupt.params = interrupted.params ∧ completes .rti interrupted.interrupt :=
  ⟨by decide, by decide, by decide, by decide, by decide, _, rfl⟩
theorem test_witness_boundary :
    (∃ t, cpuStep (start [0xEA#8] []) = .next t) ∧ (∃ f, cpuStep (start [0x00#8] []) = .fault f) ∧
      (requesting (start [] [])).bus.poll.1 = true ∧
      (∀ d ∈ (start [] []).bus.devices, ∀ p, d.kind ≠ .peripheral p) := by
  refine ⟨⟨_, rfl⟩, ⟨_, rfl⟩, by decide, fun d hd p => ?_⟩
  simp [start, startAt, placeBytes] at hd
  simp [hd]
theorem test_witness_frame_instructions_complete :
    (∀ i ∈ [Instr.ldaAbs 0xFFFF#16, .ldxZpY 0xFF#8, .ldyImm 0x00#8, .adcImm 0xFF#8, .cmpZp 0x00#8, .bitAbs 0x0000#16,
        .stxAbs 0xFFFF#16, .decZp 0x00#8, .rorAbsX 0xFFFF#16, .rolAcc, .pha, .php, .pla, .plp, .jsr 0xFFFF#16, .rts, .rti,
        .tax, .iny, .tya, .txs, .bcc 0x80#8, .jmpAbs 0x0000#16, .jmpInd 0xFFFF#16, .sec, .cld, .sei, .clv, .nop],
      completes i (start [] [])) := by
  intro i hi
  fin_cases hi <;> exact ⟨_, rfl⟩
theorem test_witness_vector_patch :
    let s := { start [] [(0x0011, 0xFE#8), (0x0012, 0xFF#8)] with a := 0x00#8 }
    s.bus.wf = true ∧ (s.readWord 0x0011#16).1 = 0xFFFE#16 ∧
      (s.vectorPatch 0x0010#16 [0x01#8, 0x02#8, 0x03#8]).bus.peek 0x0000#16 = some 0x03#8 := by decide
theorem test_witness_boot :
    Params.wellFormed ⟨0x02#8, .zero, []⟩ = true ∧ Params.wellFormed ⟨0xEA#8, .zero, []⟩ = false ∧
      (∀ d ∈ [Device.mk 0x0000#16 0x8000 (.ram (cells [(0x7FFF, 0x02#8)])),
        ⟨0xFFF0#16, 16, .rom (cells [(0xFFFC, 0x34#8)]) .ignore⟩], d.wf = true) ∧
      (.error .missingImage : Except LaunchError Device) ∈
        [.ok ⟨0x0000#16, 1, .ram []⟩, loadRom 0xFFF0#16 16 .ignore none] :=
  ⟨by decide, by decide, by decide, by simp [loadRom]⟩
/-- R49, R265, U19: an image as large as its device loads, its last byte at the last address; one byte more is too large. -/
theorem test_witness_images :
    ([0x01#8, 0x02#8] : List Byte).length ≤ 2 ∧ 1 < ([0x01#8, 0x02#8] : List Byte).length ∧
      ([0x01#8, 0x02#8] : List Byte)[1]? = some 0x02#8 ∧ (0xFFFF#16).toNat = (0xFFFE#16).toNat + 1 := by decide
theorem test_witness_stop_addresses :
    let s := { start [0xEA#8] [] with params := ⟨0x02#8, .zero, [0x0600#16]⟩ }
    s.pc ∈ s.params.stopPcs ∧ (start [0xEA#8] []).pc ∉ (start [0xEA#8] []).params.stopPcs ∧
      (∃ t, step (start [0xEA#8] []) = .next t) ∧ (∃ f, step (start [0x00#8] []) = .fault f) :=
  ⟨by decide, by decide, ⟨_, rfl⟩, ⟨_, rfl⟩⟩

end Sys2Proof.Tests
end

section
/-! PROOF. The packed status byte (R30, R31): each flag sits in a bit of its own, so a bit of the byte `GetByte` builds is
one flag, and `SetByte` finds every flag it reads where `GetByte` put it. -/

namespace Sys2Proof.Machine

/-- `flagBit k` holds the flag in bit `k` and nothing elsewhere. -/
@[simp] theorem getLsbD_flagBit {k : Nat} (hk : k < 8) (x : Bool) (j : Nat) :
    (flagBit k x).getLsbD j = (decide (j = k) && x) := by
  cases x with
  | false => simp [flagBit]
  | true =>
    rw [flagBit, if_pos rfl, ← BitVec.twoPow_eq, BitVec.getLsbD_twoPow, Bool.and_true]
    simp [hk, eq_comm]

/-- Every bit of the packed status byte at once: the eight flag bits do not overlap (R30). -/
theorem Flags.getLsbD_getByte (f : Flags) (j : Nat) :
    f.getByte.getLsbD j =
      (decide (j = 0) && f.c || decide (j = 1) && f.z || decide (j = 2) && f.i || decide (j = 3) && f.d ||
        decide (j = 4) && f.b || decide (j = 5) || decide (j = 6) && f.v || decide (j = 7) && f.n) := by
  simp [Flags.getByte]

/-- `SetByte` written out: six flags come from the byte, B stays (R31). -/
theorem Flags.setByte_eq (p : Byte) (g : Flags) :
    g.setByte p = { c := p.getLsbD 0, z := p.getLsbD 1, i := p.getLsbD 2, d := p.getLsbD 3, b := g.b
                    v := p.getLsbD 6, n := p.getLsbD 7 } := rfl

/-- Unpacking a packed byte gives the packed flags back; only B is the receiver's own (R30, R31). -/
theorem Flags.setByte_getByte (f g : Flags) : g.setByte f.getByte = { f with b := g.b } := by
  simp only [Flags.setByte_eq, Flags.getLsbD_getByte]
  simp

end Sys2Proof.Machine

namespace Sys2Proof.Proofs

open Sys2Proof.Machine

/-- Settles O42: a bit of the packed byte is one flag (`Flags.getLsbD_getByte`), and the round trip is
`Flags.setByte_getByte`. -/
theorem statusBytePacksTheFlags : Obligations.StatusBytePacksTheFlags := by
  intro f g
  refine ⟨?c, ?z, ?i, ?d, ?b, ?one, ?v, ?n, fun p => Flags.setByte_eq p g, Flags.setByte_getByte f g⟩
  all_goals
    rw [Flags.getLsbD_getByte]
    simp

end Sys2Proof.Proofs
end

section
/-! PROOF. Which device services a read (R44) and when a device contains an address (R46): the devices above the first
match are passed over unchanged, so the read is the one of the first match alone. -/

namespace Sys2Proof.Machine

/-- A device that contains the address and has priority services the read alone (R44). -/
theorem readDevices_cons_of_contains {a : Addr} {d : Device} (h : d.contains a = true) (calls : List BusCall)
    (ds : List Device) :
    readDevices a calls (d :: ds) =
      ((d.read ds.length a calls).1, (d.read ds.length a calls).2.1 :: ds, (d.read ds.length a calls).2.2) := by
  rw [readDevices, if_pos h]

/-- A device that does not contain the address is passed over, unchanged (R44). -/
theorem readDevices_cons_of_not_contains {a : Addr} {d : Device} (h : d.contains a = false) (calls : List BusCall)
    (ds : List Device) :
    readDevices a calls (d :: ds) =
      ((readDevices a calls ds).1, d :: (readDevices a calls ds).2.1, (readDevices a calls ds).2.2) := by
  rw [readDevices, if_neg (Bool.eq_false_iff.mp h)]

/-- Devices that do not contain the address leave the read to those below them (R44). -/
theorem readDevices_append {a : Addr} {before : List Device} (h : ∀ d ∈ before, d.contains a = false)
    (calls : List BusCall) (rest : List Device) :
    readDevices a calls (before ++ rest) =
      ((readDevices a calls rest).1, before ++ (readDevices a calls rest).2.1, (readDevices a calls rest).2.2) := by
  induction before with
  | nil => rfl
  | cons d ds ih =>
    obtain ⟨hd, hds⟩ := List.forall_mem_cons.mp h
    rw [List.cons_append, readDevices_cons_of_not_contains hd, ih hds, List.cons_append]

/-- A read that no device services gives the open bus's byte and changes nothing (R44). -/
theorem Bus.read_of_no_match {a : Addr} {ds : List Device} (h : ∀ d ∈ ds, d.contains a = false)
    (calls : List BusCall) : (⟨ds, calls⟩ : Bus).read a = (Config.openBusByte, ⟨ds, calls⟩) := by
  have hr := readDevices_append h calls []
  rw [List.append_nil] at hr
  simp [Bus.read, hr, readDevices]

/-- A read is the first match's own, under its number; the devices above and below it stay as they are (R44). -/
theorem Bus.read_of_first_match {a : Addr} {before : List Device} {d : Device}
    (h : ∀ e ∈ before, e.contains a = false) (hd : d.contains a = true) (after : List Device) (calls : List BusCall) :
    (⟨before ++ d :: after, calls⟩ : Bus).read a =
      ((d.read after.length a calls).1,
        ⟨before ++ (d.read after.length a calls).2.1 :: after, (d.read after.length a calls).2.2⟩) := by
  rw [Bus.read, readDevices_append h, readDevices_cons_of_contains hd]

end Sys2Proof.Machine

namespace Sys2Proof.Proofs

open Sys2Proof.Machine

/-- Settles O22: the two outcomes of a read are `Bus.read_of_no_match` and `Bus.read_of_first_match`. -/
theorem readIsServicedByTheFirstMatch : Obligations.ReadIsServicedByTheFirstMatch :=
  fun _ calls _ after h => ⟨Bus.read_of_no_match h calls, fun _ hd => Bus.read_of_first_match h hd after calls⟩

/-- Settles O24: `Device.contains_iff` says it on natural numbers; the subtraction of 1 on integers, where a size of 0
makes the range empty, is the strict bound there. -/
theorem containsIsTheIntegerRange : Obligations.ContainsIsTheIntegerRange := by
  intro d a
  rw [Device.contains_iff]
  omega

end Sys2Proof.Proofs
end

section
/-! PROOF. An opcode with no descriptor (R96, R231): no operand byte is counted for it, so the fetch is one read at PC, and
the step ends in the fault. -/

namespace Sys2Proof.Machine

/-- An undocumented byte other than `TRAP_OPCODE` has no descriptor: every row of the table is documented (R82, R99). -/
theorem descriptor_of_undocumented {k op : Byte} (h : op.toNat ∈ undocumentedOpcodes) (hk : op ≠ k) :
    descriptor k op = none := by
  have hlegal : trapOpcodeLegal op = true := List.contains_iff_mem.mpr h
  have hfind : opcodeTable.find? (fun r => r.opcode == op) = none := by
    rw [List.find?_eq_none]
    intro r hr heq
    have hdoc := opcodeTable_documented r hr
    rw [eq_of_beq heq, hlegal] at hdoc
    cases hdoc
  rw [descriptor, if_neg hk, hfind, Option.map_none]

/-- A byte with no descriptor at PC is fetched alone: one read, PC one further (R84, R96). -/
theorem State.fetchInstr_of_no_descriptor {s : State}
    (h : descriptor s.params.trapOpcode (s.bus.read s.pc).1 = none) :
    s.fetchInstr = (.unknownOpcode (s.bus.read s.pc).1, { s with pc := s.pc + 1, bus := (s.bus.read s.pc).2 }) := by
  have hop : s.fetch8 = ((s.bus.read s.pc).1, { s with pc := s.pc + 1, bus := (s.bus.read s.pc).2 }) := rfl
  simp only [State.fetchInstr, hop, operandCount, decode, h, Option.map_none, Option.getD_none, State.fetchBytes]

/-- A step that fetches an unknown opcode is the fault, with the state the fetch left (R96, R231). -/
theorem step_of_unknownOpcode {s t : State} {op : Byte} (h : s.fetchInstr = (.unknownOpcode op, t)) :
    step s = .fault (.unknownOpcode op t) := by
  simp only [step, hostTurn, cpuStep, h]

end Sys2Proof.Machine

namespace Sys2Proof.Proofs

open Sys2Proof.Machine

/-- Settles O7: the byte has no descriptor, so it is fetched alone, and the step faults with what that fetch left. -/
theorem unknownOpcodeIsFatal : Obligations.UnknownOpcodeIsFatal := fun _ hundoc hne =>
  step_of_unknownOpcode (State.fetchInstr_of_no_descriptor (descriptor_of_undocumented hundoc hne))

end Sys2Proof.Proofs
end

section
/-! PROOF. Loads and stores (R120-R125). The encodings of an instruction stand in one list. Per list: its bytes decode to its
instructions, and every coding runs the one shared meaning (`loadA`, `storeTo`, ...) at the coding's form; per meaning: the
state it leaves. -/

namespace Sys2Proof.Machine

open Sys2Proof.Said

/-- Codings with documented opcodes need be decoded under one `TRAP_OPCODE` only, that of `State.reset`. -/
theorem Coding.right_of_documented {α : Type} {l : List (Coding α)}
    (hdoc : ∀ e ∈ l, trapOpcodeLegal e.opcode = false)
    (hdec : ∀ e ∈ l, decode Config.resetTrapOpcode (e.opcode :: e.operands) = .instr e.instr []) :
    ∀ e ∈ l, e.Right := by
  intro e he k hk
  rw [decode_of_documented e.operands hk (j := Config.resetTrapOpcode) rfl (hdoc e he), hdec e he]

/-- `Update(v)` as R29 words it: Z says `v` is 0, N is its bit 7. -/
theorem Flags.update_eq_updated (v : Byte) (f : Flags) : f.update v = updated v f := by
  have hz : (v == 0x00#8) = decide (v.toNat = 0) := by simp [← BitVec.toNat_inj, Bool.beq_eq_decide_eq]
  have hn : v.getLsbD 7 = decide (128 ≤ v.toNat) := by rw [← BitVec.msb_eq_getLsbD_last, BitVec.msb_eq_decide]
  rw [Flags.update, updated, hz, hn]

/-! ### The state a load leaves -/

theorem loadA_state (f : ReadForm) (s : State) :
    loadA f s = .next { (operand f s).2 with a := (operand f s).1, flags := updated (operand f s).1 s.flags } := by
  simp only [loadA, withOperand, State.setA, State.update, Flags.update_eq_updated, operand_flags]

theorem loadX_state (f : ReadForm) (s : State) :
    loadX f s = .next { (operand f s).2 with x := (operand f s).1, flags := updated (operand f s).1 s.flags } := by
  simp only [loadX, withOperand, State.setX, State.update, Flags.update_eq_updated, operand_flags]

theorem loadY_state (f : ReadForm) (s : State) :
    loadY f s = .next { (operand f s).2 with y := (operand f s).1, flags := updated (operand f s).1 s.flags } := by
  simp only [loadY, withOperand, State.setY, State.update, Flags.update_eq_updated, operand_flags]

/-! ### The encodings

A fact of every coding of a list is one equation of two mapped lists (`List.map_inj_left`), and each of these computes. -/

section
variable (z lo hi : Byte)

theorem codingsLda_right : ∀ e ∈ codingsLda z lo hi, e.Right :=
  Coding.right_of_documented (List.map_inj_left.mp rfl) (List.map_inj_left.mp rfl)

theorem codingsLdx_right : ∀ e ∈ codingsLdx z lo hi, e.Right :=
  Coding.right_of_documented (List.map_inj_left.mp rfl) (List.map_inj_left.mp rfl)

theorem codingsLdy_right : ∀ e ∈ codingsLdy z lo hi, e.Right :=
  Coding.right_of_documented (List.map_inj_left.mp rfl) (List.map_inj_left.mp rfl)

theorem codingsSta_right : ∀ e ∈ codingsSta z lo hi, e.Right :=
  Coding.right_of_documented (List.map_inj_left.mp rfl) (List.map_inj_left.mp rfl)

theorem codingsStx_right : ∀ e ∈ codingsStx z lo hi, e.Right :=
  Coding.right_of_documented (List.map_inj_left.mp rfl) (List.map_inj_left.mp rfl)

theorem codingsSty_right : ∀ e ∈ codingsSty z lo hi, e.Right :=
  Coding.right_of_documented (List.map_inj_left.mp rfl) (List.map_inj_left.mp rfl)

variable (s : State)

theorem exec_codingsLda : ∀ e ∈ codingsLda z lo hi, exec e.instr s = loadA e.form s := List.map_inj_left.mp rfl
theorem exec_codingsLdx : ∀ e ∈ codingsLdx z lo hi, exec e.instr s = loadX e.form s := List.map_inj_left.mp rfl
theorem exec_codingsLdy : ∀ e ∈ codingsLdy z lo hi, exec e.instr s = loadY e.form s := List.map_inj_left.mp rfl
theorem exec_codingsSta : ∀ e ∈ codingsSta z lo hi, exec e.instr s = storeTo e.form s.a s := List.map_inj_left.mp rfl
theorem exec_codingsStx : ∀ e ∈ codingsStx z lo hi, exec e.instr s = storeTo e.form s.x s := List.map_inj_left.mp rfl
theorem exec_codingsSty : ∀ e ∈ codingsSty z lo hi, exec e.instr s = storeTo e.form s.y s := List.map_inj_left.mp rfl

end

end Sys2Proof.Machine

namespace Sys2Proof.Proofs

open Sys2Proof.Machine

/-- Settles O29: every coding is right, and its instruction is the load at its form, whose state `loadA_state`,
`loadX_state` and `loadY_state` give. -/
theorem loadsPutTheOperandInTheRegister : Obligations.LoadsPutTheOperandInTheRegister := by
  intro z lo hi s
  refine ⟨fun e he => ⟨codingsLda_right z lo hi e he, ?lda⟩, fun e he => ⟨codingsLdx_right z lo hi e he, ?ldx⟩,
    fun e he => ⟨codingsLdy_right z lo hi e he, ?ldy⟩⟩
  case lda => exact (exec_codingsLda z lo hi s e he).trans (loadA_state e.form s)
  case ldx => exact (exec_codingsLdx z lo hi s e he).trans (loadX_state e.form s)
  case ldy => exact (exec_codingsLdy z lo hi s e he).trans (loadY_state e.form s)

/-- Settles O30: every coding is right, and its instruction is `storeTo` at its form, whose state is `storeTo_state`. -/
theorem storesWriteTheRegister : Obligations.StoresWriteTheRegister := by
  intro z lo hi s
  refine ⟨fun e he => ⟨codingsSta_right z lo hi e he, ?sta⟩, fun e he => ⟨codingsStx_right z lo hi e he, ?stx⟩,
    fun e he => ⟨codingsSty_right z lo hi e he, ?sty⟩⟩
  case sta => exact (exec_codingsSta z lo hi s e he).trans (storeTo_state e.form s.a s)
  case stx => exact (exec_codingsStx z lo hi s e he).trans (storeTo_state e.form s.x s)
  case sty => exact (exec_codingsSty z lo hi s e he).trans (storeTo_state e.form s.y s)

end Sys2Proof.Proofs
end

section
/-! PROOF. Register transfers and the one-byte stack instructions (R130-R139): a transfer is one register assignment
(`State.setA`, `State.setX`, `State.setY`), a push or a pull one `Push8` or `Pop8`; each is said once, in the words of the
rules, and the instructions are read off. -/

namespace Sys2Proof.Machine

open Sys2Proof.Said

/-- Bytes with a documented opcode need be decoded under one `TRAP_OPCODE` only, that of `State.reset`. -/
theorem isCodedAs_of_documented {op : Byte} {tail : List Byte} {i : Instr} (hdoc : trapOpcodeLegal op = false)
    (hdec : decode Config.resetTrapOpcode (op :: tail) = .instr i []) : IsCodedAs (op :: tail) i :=
  fun _ hk => (decode_of_documented tail hk rfl hdoc).trans hdec

/-! ### Register assignments with `Update` -/

theorem State.setA_eq (v : Byte) (s : State) : s.setA v = { s with a := v, flags := updated v s.flags } := by
  rw [← Flags.update_eq_updated]
  rfl

theorem State.setX_eq (v : Byte) (s : State) : s.setX v = { s with x := v, flags := updated v s.flags } := by
  rw [← Flags.update_eq_updated]
  rfl

theorem State.setY_eq (v : Byte) (s : State) : s.setY v = { s with y := v, flags := updated v s.flags } := by
  rw [← Flags.update_eq_updated]
  rfl

/-! ### The stack pointer and the byte it designates -/

/-- The address of the stack byte is 0x0100 + SP; the sum stays in page 1 (R55). -/
theorem stackAddr_eq_stackByte (sp : Byte) : stackAddr sp = stackByte sp := by
  apply BitVec.eq_of_toNat_eq
  simp [stackAddr, stackByte, Config.stackBase]

/-- SP counts down modulo 256: 0x00 wraps to 0xFF (R56, R60). -/
theorem sub_one_eq_ofNat (sp : Byte) : sp - 1 = BitVec.ofNat 8 ((sp.toNat + 255) % 256) := by
  apply BitVec.eq_of_toNat_eq
  simp [BitVec.toNat_sub, Nat.add_comm]

/-- SP counts up modulo 256: 0xFF wraps to 0x00 (R57, R60). -/
theorem add_one_eq_ofNat (sp : Byte) : sp + 1 = BitVec.ofNat 8 ((sp.toNat + 1) % 256) := by
  apply BitVec.eq_of_toNat_eq
  simp [BitVec.toNat_add]

/-- `Push8` writes at 0x0100 + SP, then decrements SP (R56). -/
theorem State.push8_eq (v : Byte) (s : State) :
    s.push8 v = { s with
      bus := s.bus.write (stackByte s.sp) v, sp := BitVec.ofNat 8 ((s.sp.toNat + 255) % 256) } := by
  rw [← stackAddr_eq_stackByte, ← sub_one_eq_ofNat]
  rfl

/-- `Pop8` increments SP, then reads at 0x0100 + SP (R57). -/
theorem State.pop8_eq (s : State) :
    s.pop8 =
      let sp : Byte := BitVec.ofNat 8 ((s.sp.toNat + 1) % 256)
      let p := s.bus.read (stackByte sp)
      (p.1, { s with bus := p.2, sp := sp }) := by
  simp only [← add_one_eq_ofNat, ← stackAddr_eq_stackByte]
  rfl

end Sys2Proof.Machine

namespace Sys2Proof.Proofs

open Sys2Proof.Machine

/-- Settles O39: five transfers are a register assignment with `Update`; TXS writes SP and no flag. -/
theorem transfersCopyOneRegister : Obligations.TransfersCopyOneRegister := by
  refine ⟨?tax, ?tay, ?txa, ?tya, ?tsx, ?txs, fun s => ⟨?execTax, ?execTay, ?execTxa, ?execTya, ?execTsx, ?execTxs⟩⟩
  case tax | tay | txa | tya | tsx | txs => all_goals exact isCodedAs_of_documented rfl rfl
  case execTax => exact congrArg _ (State.setX_eq s.a s)
  case execTay => exact congrArg _ (State.setY_eq s.a s)
  case execTxa => exact congrArg _ (State.setA_eq s.x s)
  case execTya => exact congrArg _ (State.setA_eq s.y s)
  case execTsx => exact congrArg _ (State.setX_eq s.sp s)
  case execTxs => rfl

/-- Settles O40: PHA and PHP are `Push8` of A and of the status byte, whose state `State.push8_eq` gives. -/
theorem pushesWriteThenDecrement : Obligations.PushesWriteThenDecrement := by
  refine ⟨isCodedAs_of_documented rfl rfl, isCodedAs_of_documented rfl rfl, fun s => ⟨?pha, ?php⟩⟩
  case pha => exact congrArg _ (State.push8_eq s.a s)
  case php => exact congrArg _ (State.push8_eq s.flags.getByte s)

/-- Settles O41: PLA and PLP are `Pop8` (`State.pop8_eq`), then the pulled byte into A, or unpacked into the flags. -/
theorem pullsIncrementThenRead : Obligations.PullsIncrementThenRead := by
  refine ⟨isCodedAs_of_documented rfl rfl, isCodedAs_of_documented rfl rfl, fun s => ⟨?pla, ?plp⟩⟩
  case pla =>
    have hpla : exec .pla s = .next (s.pop8.2.setA s.pop8.1) := rfl
    rw [hpla, State.setA_eq, State.pop8_eq]
  case plp =>
    have hplp : exec .plp s = .next { s.pop8.2 with flags := s.pop8.2.flags.setByte s.pop8.1 } := rfl
    rw [hplp, Flags.setByte_eq, State.pop8_eq]

end Sys2Proof.Proofs
end

section
/-! PROOF. Arithmetic (R150-R162). The result and the flags of ADC are said once in integers; SBC is ADC of the complement, as
R152 computes it, so its result and flags follow. The remaining instructions are one comparison, one read-modify-write or
one register assignment each. -/

namespace Sys2Proof.Machine

open Sys2Proof.Said

/-- The sign bit of a byte says its value is at least 128. -/
theorem sign_eq_decide (v : Byte) : sign v = decide (128 ≤ v.toNat) := by
  rw [sign, ← BitVec.msb_eq_getLsbD_last, BitVec.msb_eq_decide]

/-! ### ADC -/

theorem adcResult_eq_ofNat (a m : Byte) (f : Flags) :
    adcResult a m f.c = BitVec.ofNat 8 ((a.toNat + m.toNat + carry f) % 256) := by
  apply BitVec.eq_of_toNat_eq
  simp [adcResult, adcSum, carry, bit]

/-- The rule's overflow, by sign bits, is the signed overflow of the sum: from operands of one sign, the sum leaves
-128..127 exactly when the sign of its byte is the other one (R151). -/
theorem adc_overflow_eq_decide (a m : Byte) (c : Bool) :
    (sign a == sign m && sign (adcResult a m c) != sign a) =
      decide (a.toInt + m.toInt + bit c < -128 ∨ 127 < a.toInt + m.toInt + bit c) := by
  have hr : (adcResult a m c).toNat = (a.toNat + m.toNat + bit c) % 256 := BitVec.toNat_ofNat _ _
  have hc : bit c ≤ 1 := by cases c <;> decide
  have ha := a.isLt
  have hm := m.isLt
  rw [Bool.eq_iff_iff]
  simp only [Bool.and_eq_true, beq_iff_eq, bne_iff_ne, ne_eq, sign_eq_decide, hr, decide_eq_decide, decide_eq_true_eq,
    BitVec.toInt_eq_toNat_cond]
  split <;> split <;> omega

theorem adcFlags_eq_updated (a m : Byte) (f : Flags) :
    adcFlags a m f = updated (BitVec.ofNat 8 ((a.toNat + m.toNat + carry f) % 256)) { f with
      c := decide (a.toNat + m.toNat + carry f > 255)
      v := decide (a.toInt + m.toInt + carry f < -128 ∨ 127 < a.toInt + m.toInt + carry f) } := by
  simp only [adcFlags, adc_overflow_eq_decide, Flags.update_eq_updated]
  rw [adcResult_eq_ofNat]
  rfl

theorem addA_state (f : ReadForm) (s : State) :
    let m := operand f s
    let sum := s.a.toNat + m.1.toNat + carry s.flags
    let signed : Int := s.a.toInt + m.1.toInt + carry s.flags
    addA f s = .next { m.2 with
      a := BitVec.ofNat 8 (sum % 256)
      flags := updated (BitVec.ofNat 8 (sum % 256)) { s.flags with
        c := decide (sum > 255)
        v := decide (signed < -128 ∨ 127 < signed) } } := by
  simp only [addA, withOperand, operand_a, operand_flags, adcResult_eq_ofNat, adcFlags_eq_updated]

/-! ### SBC is ADC of the complement -/

theorem toInt_complement (m : Byte) : (~~~m).toInt = -m.toInt - 1 := by
  have hm := m.isLt
  simp only [BitVec.toInt_eq_toNat_cond, BitVec.toNat_not]
  split <;> split <;> omega

theorem sbcSum_eq_adcSum (a m : Byte) (c : Bool) : sbcSum a m c = adcSum a (~~~m) c := by
  rw [sbcSum, adcSum, BitVec.toNat_not]

theorem sbcResult_eq_adcResult (a m : Byte) (c : Bool) : sbcResult a m c = adcResult a (~~~m) c := by
  rw [sbcResult, adcResult, sbcSum_eq_adcSum]

/-- Different signs of `A` and `m` are equal signs of `A` and `~m`, so the two overflow rules are one (R151, R152). -/
theorem sbcFlags_eq_adcFlags (a m : Byte) (f : Flags) : sbcFlags a m f = adcFlags a (~~~m) f := by
  have hsign : (sign a != sign m) = (sign a == sign (~~~m)) := by
    have hm : sign (~~~m) = !sign m := by simp [sign]
    rw [hm]
    cases sign a <;> cases sign m <;> rfl
  simp only [sbcFlags, adcFlags, sbcSum_eq_adcSum, sbcResult_eq_adcResult, hsign]

/-- `A + ~m + C` is `A - m - (1 - C)` plus 256, the same byte. -/
theorem sbcResult_eq_ofInt (a m : Byte) (f : Flags) :
    sbcResult a m f.c = BitVec.ofInt 8 (a.toNat - m.toNat - (1 - carry f : Int)) := by
  have hm := m.isLt
  rw [sbcResult_eq_adcResult, adcResult_eq_ofNat, BitVec.toNat_not]
  apply BitVec.eq_of_toNat_eq
  rw [BitVec.toNat_ofInt, BitVec.toNat_ofNat]
  omega

/-- The sum with the complement exceeds 255 when the difference is not negative, and is the same signed number (R152). -/
theorem sbcFlags_eq_updated (a m : Byte) (f : Flags) :
    sbcFlags a m f = updated (BitVec.ofInt 8 (a.toNat - m.toNat - (1 - carry f : Int))) { f with
      c := decide (0 ≤ (a.toNat - m.toNat - (1 - carry f : Int)))
      v := decide (a.toInt - m.toInt - (1 - carry f : Int) < -128 ∨ 127 < a.toInt - m.toInt - (1 - carry f : Int)) } := by
  have hm := m.isLt
  have hcarry : a.toNat + (~~~m).toNat + carry f > 255 ↔ 0 ≤ (a.toNat - m.toNat - (1 - carry f : Int)) := by
    rw [BitVec.toNat_not]
    omega
  have hsigned : a.toInt + (~~~m).toInt + carry f = a.toInt - m.toInt - (1 - carry f : Int) := by
    rw [toInt_complement]
    omega
  rw [sbcFlags_eq_adcFlags, adcFlags_eq_updated, ← adcResult_eq_ofNat, ← sbcResult_eq_adcResult, sbcResult_eq_ofInt]
  simp only [hcarry, hsigned]

theorem subtractA_state (f : ReadForm) (s : State) :
    let m := operand f s
    let difference : Int := s.a.toNat - m.1.toNat - (1 - carry s.flags : Int)
    let signed : Int := s.a.toInt - m.1.toInt - (1 - carry s.flags : Int)
    subtractA f s = .next { m.2 with
      a := BitVec.ofInt 8 difference
      flags := updated (BitVec.ofInt 8 difference) { s.flags with
        c := decide (0 ≤ difference)
        v := decide (signed < -128 ∨ 127 < signed) } } := by
  simp only [subtractA, withOperand, operand_a, operand_flags, sbcResult_eq_ofInt, sbcFlags_eq_updated]

/-! ### Comparison -/

/-- `Compare` in numbers: equality and the sign of the wrapped difference (R153). -/
theorem compareFlags_eq (reg m : Byte) (f : Flags) :
    compareFlags reg m f = { f with
      c := decide (m.toNat ≤ reg.toNat)
      z := decide (reg.toNat = m.toNat)
      n := decide (128 ≤ (256 + reg.toNat - m.toNat) % 256) } := by
  have hz : (reg == m) = decide (reg.toNat = m.toNat) := by simp only [beq_eq_decide, BitVec.toNat_inj]
  have hn : (reg - m).toNat = (256 + reg.toNat - m.toNat) % 256 := by bv_omega
  simp only [compareFlags, Flags.setCarry, Flags.setZero, Flags.setNegative, sign_eq_decide, hz, hn]

theorem compareWith_state (reg : State → Byte) (f : ReadForm) (s : State) :
    compareWith reg f s = .next { (operand f s).2 with
      flags := compareFlags (reg (operand f s).2) (operand f s).1 s.flags } := by
  simp only [compareWith, withOperand, operand_flags]

/-! ### Increment and decrement of memory -/

theorem incrementAt_state (m : MemForm) (s : State) :
    let ea := effectiveAddr m s
    let v := ea.2.bus.read ea.1
    let r : Byte := BitVec.ofNat 8 ((v.1.toNat + 1) % 256)
    incrementAt m s = .next { s with bus := v.2.write ea.1 r, flags := updated r s.flags } := by
  simp only [incrementAt, modifyMem_state, Flags.update_eq_updated, add_one_eq_ofNat]

theorem decrementAt_state (m : MemForm) (s : State) :
    let ea := effectiveAddr m s
    let v := ea.2.bus.read ea.1
    let r : Byte := BitVec.ofNat 8 ((v.1.toNat + 255) % 256)
    decrementAt m s = .next { s with bus := v.2.write ea.1 r, flags := updated r s.flags } := by
  simp only [decrementAt, modifyMem_state, Flags.update_eq_updated, sub_one_eq_ofNat]

/-! ### Increment and decrement of a register -/

theorem exec_inx (s : State) : exec .inx s = .next (s.setX (s.x + 1)) := rfl
theorem exec_iny (s : State) : exec .iny s = .next (s.setY (s.y + 1)) := rfl
theorem exec_dex (s : State) : exec .dex s = .next (s.setX (s.x - 1)) := rfl
theorem exec_dey (s : State) : exec .dey s = .next (s.setY (s.y - 1)) := rfl

/-! ### The encodings -/

section
variable (z lo hi : Byte)

theorem codingsAdc_right : ∀ e ∈ codingsAdc z lo hi, e.Right :=
  Coding.right_of_documented (List.map_inj_left.mp rfl) (List.map_inj_left.mp rfl)

theorem codingsSbc_right : ∀ e ∈ codingsSbc z lo hi, e.Right :=
  Coding.right_of_documented (List.map_inj_left.mp rfl) (List.map_inj_left.mp rfl)

theorem codingsCmp_right : ∀ e ∈ codingsCmp z lo hi, e.Right :=
  Coding.right_of_documented (List.map_inj_left.mp rfl) (List.map_inj_left.mp rfl)

theorem codingsCpx_right : ∀ e ∈ codingsCpx z lo hi, e.Right :=
  Coding.right_of_documented (List.map_inj_left.mp rfl) (List.map_inj_left.mp rfl)

theorem codingsCpy_right : ∀ e ∈ codingsCpy z lo hi, e.Right :=
  Coding.right_of_documented (List.map_inj_left.mp rfl) (List.map_inj_left.mp rfl)

theorem codingsInc_right : ∀ e ∈ codingsInc z lo hi, e.Right :=
  Coding.right_of_documented (List.map_inj_left.mp rfl) (List.map_inj_left.mp rfl)

theorem codingsDec_right : ∀ e ∈ codingsDec z lo hi, e.Right :=
  Coding.right_of_documented (List.map_inj_left.mp rfl) (List.map_inj_left.mp rfl)

variable (s : State)

theorem exec_codingsAdc : ∀ e ∈ codingsAdc z lo hi, exec e.instr s = addA e.form s := List.map_inj_left.mp rfl
theorem exec_codingsSbc : ∀ e ∈ codingsSbc z lo hi, exec e.instr s = subtractA e.form s := List.map_inj_left.mp rfl
theorem exec_codingsCmp : ∀ e ∈ codingsCmp z lo hi, exec e.instr s = compareWith State.a e.form s :=
  List.map_inj_left.mp rfl
theorem exec_codingsCpx : ∀ e ∈ codingsCpx z lo hi, exec e.instr s = compareWith State.x e.form s :=
  List.map_inj_left.mp rfl
theorem exec_codingsCpy : ∀ e ∈ codingsCpy z lo hi, exec e.instr s = compareWith State.y e.form s :=
  List.map_inj_left.mp rfl
theorem exec_codingsInc : ∀ e ∈ codingsInc z lo hi, exec e.instr s = incrementAt e.form s := List.map_inj_left.mp rfl
theorem exec_codingsDec : ∀ e ∈ codingsDec z lo hi, exec e.instr s = decrementAt e.form s := List.map_inj_left.mp rfl

end

end Sys2Proof.Machine

namespace Sys2Proof.Proofs

open Sys2Proof.Machine

/-- Settles O31: every coding is right, and its instruction is `addA` at its form, whose state `addA_state` gives. -/
theorem adcAddsWithCarry : Obligations.AdcAddsWithCarry := fun z lo hi s e he =>
  ⟨codingsAdc_right z lo hi e he, (exec_codingsAdc z lo hi s e he).trans (addA_state e.form s)⟩

/-- Settles O32: every coding is right, and its instruction is `subtractA` at its form, whose state `subtractA_state`
gives. -/
theorem sbcSubtractsWithBorrow : Obligations.SbcSubtractsWithBorrow := fun z lo hi s e he =>
  ⟨codingsSbc_right z lo hi e he, (exec_codingsSbc z lo hi s e he).trans (subtractA_state e.form s)⟩

/-- Settles O33: every coding is right, and its instruction is the comparison with its register (`compareWith_state`),
which reading the operand leaves alone; its flags are `compareFlags_eq`. -/
theorem comparesSetCarryZeroNegative : Obligations.ComparesSetCarryZeroNegative := by
  intro z lo hi s
  refine ⟨fun e he => ⟨codingsCmp_right z lo hi e he, ?cmp⟩, fun e he => ⟨codingsCpx_right z lo hi e he, ?cpx⟩,
    fun e he => ⟨codingsCpy_right z lo hi e he, ?cpy⟩⟩
  case cmp => rw [exec_codingsCmp z lo hi s e he, compareWith_state, operand_a, compareFlags_eq]
  case cpx => rw [exec_codingsCpx z lo hi s e he, compareWith_state, operand_x, compareFlags_eq]
  case cpy => rw [exec_codingsCpy z lo hi s e he, compareWith_state, operand_y, compareFlags_eq]

/-- Settles O34: every coding is right, and its instruction is `incrementAt` or `decrementAt` at its form, whose states
`incrementAt_state` and `decrementAt_state` give. -/
theorem incAndDecModifyMemory : Obligations.IncAndDecModifyMemory := by
  intro z lo hi s
  refine ⟨fun e he => ⟨codingsInc_right z lo hi e he, ?inc⟩, fun e he => ⟨codingsDec_right z lo hi e he, ?dec⟩⟩
  case inc => exact (exec_codingsInc z lo hi s e he).trans (incrementAt_state e.form s)
  case dec => exact (exec_codingsDec z lo hi s e he).trans (decrementAt_state e.form s)

/-- Settles O35: each is an assignment with `Update` to its register (`State.setX_eq`, `State.setY_eq`), of the register
counted modulo 256. -/
theorem indexRegistersCount : Obligations.IndexRegistersCount := by
  refine ⟨?inx, ?iny, ?dex, ?dey, fun s => ⟨?execInx, ?execIny, ?execDex, ?execDey⟩⟩
  case inx | iny | dex | dey => all_goals exact isCodedAs_of_documented rfl rfl
  case execInx => rw [exec_inx, State.setX_eq, add_one_eq_ofNat]
  case execIny => rw [exec_iny, State.setY_eq, add_one_eq_ofNat]
  case execDex => rw [exec_dex, State.setX_eq, sub_one_eq_ofNat]
  case execDey => rw [exec_dey, State.setY_eq, sub_one_eq_ofNat]

end Sys2Proof.Proofs
end

section
/-! PROOF. Logic, shifts and rotates (R170-R178). A logical operation is one assignment to A, BIT one assignment to the
flags. What a shift leaves is said once for A and for memory (`shifts_of_op`), from what its operation does to a byte; of
the four operations each is said once, in numbers. -/

namespace Sys2Proof.Machine

open Sys2Proof.Said

/-! ### Logical operations and BIT -/

theorem logicA_state (op : Byte → Byte → Byte) (f : ReadForm) (s : State) :
    let m := operand f s
    logicA op f s = .next { m.2 with a := op s.a m.1, flags := updated (op s.a m.1) s.flags } := by
  simp only [logicA, withOperand, State.setA_eq, operand_a, operand_flags]

/-- `A AND m` is 0 when no bit is set in both. -/
theorem and_eq_zero_iff_forall_bit (a m : Byte) :
    a &&& m = 0x00#8 ↔ ∀ j : Fin 8, ¬ (a.getLsbD j = true ∧ m.getLsbD j = true) := by
  simp only [BitVec.eq_of_getLsbD_eq_iff, BitVec.getLsbD_and, BitVec.getLsbD_zero, ← Bool.not_eq_true, Bool.and_eq_true,
    Fin.forall_iff]

/-- Bit 6 of a byte says its value, bit 7 put aside, is at least 64. -/
theorem getLsbD_six_eq_decide (m : Byte) : m.getLsbD 6 = decide (64 ≤ m.toNat % 128) := by
  rw [BitVec.getLsbD, Nat.testBit_eq_decide_div_mod_eq, decide_eq_decide]
  omega

theorem bitFlags_eq (a m : Byte) (f : Flags) :
    bitFlags a m f = { f with
      z := decide (∀ j : Fin 8, ¬ (a.getLsbD j = true ∧ m.getLsbD j = true))
      v := decide (64 ≤ m.toNat % 128)
      n := decide (128 ≤ m.toNat) } := by
  have hz : ((a &&& m) == 0x00#8) = decide (∀ j : Fin 8, ¬ (a.getLsbD j = true ∧ m.getLsbD j = true)) := by
    rw [beq_eq_decide, decide_eq_decide, and_eq_zero_iff_forall_bit]
  have hn : m.getLsbD 7 = decide (128 ≤ m.toNat) := sign_eq_decide m
  simp only [bitFlags, Flags.setZero, Flags.setOverflow, Flags.setNegative, hz, getLsbD_six_eq_decide, hn]

theorem testBits_state (f : ReadForm) (s : State) :
    testBits f s = .next { (operand f s).2 with flags := bitFlags s.a (operand f s).1 s.flags } := by
  simp only [testBits, withOperand, operand_a, operand_flags]

/-! ### The shift operations in numbers -/

theorem toNat_flagBit {k : Nat} (hk : k < 8) (x : Bool) : (flagBit k x).toNat = 2 ^ k * bit x := by
  cases x with
  | false => simp [flagBit, bit]
  | true => simp [flagBit, bit, ← BitVec.twoPow_eq, BitVec.toNat_twoPow_of_lt hk]

/-- A flag put into a clear bit is added. -/
theorem or_flagBit_eq_add {k : Nat} (hk : k < 8) {v : Byte} (hv : v.getLsbD k = false) (x : Bool) :
    v ||| flagBit k x = v + flagBit k x := by
  have hdisjoint : v &&& flagBit k x = 0#8 := by
    apply BitVec.eq_of_getLsbD_eq
    intro j _
    by_cases hj : j = k
    · simp [hj, hv]
    · simp [hk, hj]
  exact (BitVec.add_eq_or_of_and_eq_zero v (flagBit k x) hdisjoint).symm

/-- Bit 0 of a byte says its value is odd. -/
theorem getLsbD_zero_eq_decide (v : Byte) : v.getLsbD 0 = decide (v.toNat % 2 = 1) := by
  rw [BitVec.getLsbD, Nat.testBit_zero]

theorem aslOp_eq (v : Byte) (c : Bool) :
    aslOp v c = (BitVec.ofNat 8 (2 * v.toNat % 256), decide (128 ≤ v.toNat)) := by
  refine Prod.ext ?result (sign_eq_decide v)
  case result =>
    apply BitVec.eq_of_toNat_eq
    simp [aslOp, Nat.shiftLeft_eq, Nat.mul_comm]

theorem lsrOp_eq (v : Byte) (c : Bool) :
    lsrOp v c = (BitVec.ofNat 8 (v.toNat / 2), decide (v.toNat % 2 = 1)) := by
  refine Prod.ext ?result (getLsbD_zero_eq_decide v)
  case result =>
    apply BitVec.eq_of_toNat_eq
    have hv := v.isLt
    rw [lsrOp, BitVec.toNat_ushiftRight, Nat.shiftRight_eq_div_pow, BitVec.toNat_ofNat]
    omega

/-- The shift clears bit 0, so the carry put there is added. -/
theorem rolOp_eq (v : Byte) (f : Flags) :
    rolOp v f.c = (BitVec.ofNat 8 ((2 * v.toNat + carry f) % 256), decide (128 ≤ v.toNat)) := by
  have hclear : (v <<< 1).getLsbD 0 = false := by simp
  refine Prod.ext ?result (sign_eq_decide v)
  case result =>
    apply BitVec.eq_of_toNat_eq
    rw [rolOp, or_flagBit_eq_add (by decide) hclear]
    simp [toNat_flagBit, carry, bit, Nat.shiftLeft_eq, Nat.mul_comm]

/-- The shift clears bit 7, so the carry put there adds 128. -/
theorem rorOp_eq (v : Byte) (f : Flags) :
    rorOp v f.c = (BitVec.ofNat 8 (v.toNat / 2 + 128 * carry f), decide (v.toNat % 2 = 1)) := by
  have hclear : (v >>> 1).getLsbD 7 = false := by simp
  refine Prod.ext ?result (getLsbD_zero_eq_decide v)
  case result =>
    apply BitVec.eq_of_toNat_eq
    rw [rorOp, or_flagBit_eq_add (by decide) hclear]
    simp [toNat_flagBit, carry, bit, Nat.shiftRight_eq_div_pow]

/-- An instruction that runs `shift` leaves the result where it found the byte, on A as in memory, and in Carry the bit
shifted out (R174). -/
theorem shifts_of_op {i : Instr} {f : ShiftForm} {s : State} {op : ShiftOp} {result : Byte → Byte} {out : Byte → Bool}
    (hexec : exec i s = shift f op s) (hop : ∀ v, op v s.flags.c = (result v, out v)) : Shifts i f s result out := by
  cases f with
  | acc => simp only [Shifts, hexec, shift, hop, shiftFlags, Flags.setCarry, Flags.update_eq_updated]
  | mem m =>
    simp only [Shifts, hexec, shift, modifyMem_state, hop, shiftFlags, Flags.setCarry, Flags.update_eq_updated]

/-! ### The encodings -/

section
variable (z lo hi : Byte)

theorem codingsAnd_right : ∀ e ∈ codingsAnd z lo hi, e.Right :=
  Coding.right_of_documented (List.map_inj_left.mp rfl) (List.map_inj_left.mp rfl)

theorem codingsOra_right : ∀ e ∈ codingsOra z lo hi, e.Right :=
  Coding.right_of_documented (List.map_inj_left.mp rfl) (List.map_inj_left.mp rfl)

theorem codingsEor_right : ∀ e ∈ codingsEor z lo hi, e.Right :=
  Coding.right_of_documented (List.map_inj_left.mp rfl) (List.map_inj_left.mp rfl)

theorem codingsBit_right : ∀ e ∈ codingsBit z lo hi, e.Right :=
  Coding.right_of_documented (List.map_inj_left.mp rfl) (List.map_inj_left.mp rfl)

theorem codingsAsl_right : ∀ e ∈ codingsAsl z lo hi, e.Right :=
  Coding.right_of_documented (List.map_inj_left.mp rfl) (List.map_inj_left.mp rfl)

theorem codingsLsr_right : ∀ e ∈ codingsLsr z lo hi, e.Right :=
  Coding.right_of_documented (List.map_inj_left.mp rfl) (List.map_inj_left.mp rfl)

theorem codingsRol_right : ∀ e ∈ codingsRol z lo hi, e.Right :=
  Coding.right_of_documented (List.map_inj_left.mp rfl) (List.map_inj_left.mp rfl)

theorem codingsRor_right : ∀ e ∈ codingsRor z lo hi, e.Right :=
  Coding.right_of_documented (List.map_inj_left.mp rfl) (List.map_inj_left.mp rfl)

variable (s : State)

theorem exec_codingsAnd : ∀ e ∈ codingsAnd z lo hi, exec e.instr s = logicA (fun a m => a &&& m) e.form s :=
  List.map_inj_left.mp rfl
theorem exec_codingsOra : ∀ e ∈ codingsOra z lo hi, exec e.instr s = logicA (fun a m => a ||| m) e.form s :=
  List.map_inj_left.mp rfl
theorem exec_codingsEor : ∀ e ∈ codingsEor z lo hi, exec e.instr s = logicA (fun a m => a ^^^ m) e.form s :=
  List.map_inj_left.mp rfl
theorem exec_codingsBit : ∀ e ∈ codingsBit z lo hi, exec e.instr s = testBits e.form s := List.map_inj_left.mp rfl
theorem exec_codingsAsl : ∀ e ∈ codingsAsl z lo hi, exec e.instr s = shift e.form aslOp s := List.map_inj_left.mp rfl
theorem exec_codingsLsr : ∀ e ∈ codingsLsr z lo hi, exec e.instr s = shift e.form lsrOp s := List.map_inj_left.mp rfl
theorem exec_codingsRol : ∀ e ∈ codingsRol z lo hi, exec e.instr s = shift e.form rolOp s := List.map_inj_left.mp rfl
theorem exec_codingsRor : ∀ e ∈ codingsRor z lo hi, exec e.instr s = shift e.form rorOp s := List.map_inj_left.mp rfl

end

end Sys2Proof.Machine

namespace Sys2Proof.Proofs

open Sys2Proof.Machine

/-- Settles O36: every coding is right, and its instruction is `logicA` at its form, whose state `logicA_state` gives; the
byte it puts in A is the word operation, which works bit by bit. -/
theorem logicalOperationsAreBitwise : Obligations.LogicalOperationsAreBitwise := by
  intro z lo hi s
  refine ⟨fun e he => ⟨codingsAnd_right z lo hi e he, ?and⟩, fun e he => ⟨codingsOra_right z lo hi e he, ?ora⟩,
    fun e he => ⟨codingsEor_right z lo hi e he, ?eor⟩⟩
  case and =>
    exact ⟨_, fun _ _ => BitVec.getLsbD_and, (exec_codingsAnd z lo hi s e he).trans (logicA_state _ e.form s)⟩
  case ora =>
    exact ⟨_, fun _ _ => BitVec.getLsbD_or, (exec_codingsOra z lo hi s e he).trans (logicA_state _ e.form s)⟩
  case eor =>
    exact ⟨_, fun _ _ => BitVec.getLsbD_xor, (exec_codingsEor z lo hi s e he).trans (logicA_state _ e.form s)⟩

/-- Settles O37: every coding is right, and its instruction is `testBits` at its form (`testBits_state`), which changes the
flags alone, as `bitFlags_eq` says. -/
theorem bitTestsTheOperand : Obligations.BitTestsTheOperand := by
  intro z lo hi s e he
  refine ⟨codingsBit_right z lo hi e he, ?exec⟩
  case exec => rw [exec_codingsBit z lo hi s e he, testBits_state, bitFlags_eq]

/-- Settles O38: every coding is right, and its instruction is `shift` at its form with one operation on a byte
(`shifts_of_op`), whose result and carry out `aslOp_eq`, `lsrOp_eq`, `rolOp_eq` and `rorOp_eq` give. -/
theorem shiftsAndRotates : Obligations.ShiftsAndRotates := by
  intro z lo hi s
  refine ⟨fun e he => ⟨codingsAsl_right z lo hi e he, ?asl⟩, fun e he => ⟨codingsLsr_right z lo hi e he, ?lsr⟩,
    fun e he => ⟨codingsRol_right z lo hi e he, ?rol⟩, fun e he => ⟨codingsRor_right z lo hi e he, ?ror⟩⟩
  case asl => exact shifts_of_op (exec_codingsAsl z lo hi s e he) fun v => aslOp_eq v s.flags.c
  case lsr => exact shifts_of_op (exec_codingsLsr z lo hi s e he) fun v => lsrOp_eq v s.flags.c
  case rol => exact shifts_of_op (exec_codingsRol z lo hi s e he) fun v => rolOp_eq v s.flags
  case ror => exact shifts_of_op (exec_codingsRor z lo hi s e he) fun v => rorOp_eq v s.flags

end Sys2Proof.Proofs
end

section
/-! PROOF. Jumps, subroutines, the return from interrupt and the branches (R190-R205). `Push16` and `Pop16` are said once in
the words of R58 and R59; JSR, RTS and RTI follow. All eight branches are one `Branch(cond)`, whose two outcomes are said
once. -/

namespace Sys2Proof.Machine

open Sys2Proof.Said

/-! ### Words on the stack -/

/-- `Push16` writes the high byte at SP and the low byte below it, each in page 1 (R58). -/
theorem State.push16_eq (w : Addr) (s : State) :
    s.push16 w = { s with
      bus := (s.bus.write (stackByte s.sp) (BitVec.ofNat 8 (w.toNat / 256))).write (stackByte (s.sp - 1))
        (BitVec.ofNat 8 (w.toNat % 256))
      sp := s.sp - 2 } := by
  have hsp : s.sp - 2 = s.sp - 1 - 1 := by bv_omega
  rw [hsp, ← highByte_eq_ofNat, ← lowByte_eq_ofNat, ← stackAddr_eq_stackByte, ← stackAddr_eq_stackByte]
  rfl

/-- `Pop16` reads the low byte above SP, then the high byte above that, each in page 1 (R59). -/
theorem State.pop16_eq (s : State) :
    s.pop16 =
      let l := s.bus.read (stackByte (s.sp + 1))
      let h := l.2.read (stackByte (s.sp + 2))
      (BitVec.ofNat 16 (h.1.toNat * 256 + l.1.toNat), { s with bus := h.2, sp := s.sp + 2 }) := by
  have hsp : s.sp + 2 = s.sp + 1 + 1 := by bv_omega
  simp only [hsp, ← joinBytes_eq_ofNat, ← stackAddr_eq_stackByte]
  rfl

/-- A sum of addresses is the sum of the integers modulo 65536. -/
theorem ofNat_add_ofNat_wraps (m k : Nat) :
    BitVec.ofNat 16 m + BitVec.ofNat 16 k = BitVec.ofNat 16 ((m + k) % 65536) := by
  apply BitVec.eq_of_toNat_eq
  simp

/-! ### Jumps and subroutines -/

/-- JMP indirect goes to the little-endian word at the pointer (R92, R190). -/
theorem exec_jmpInd_state (w : Addr) (s : State) :
    let l := s.bus.read w
    let h := l.2.read (w + 1)
    exec (.jmpInd w) s = .next { s with pc := BitVec.ofNat 16 (h.1.toNat * 256 + l.1.toNat), bus := h.2 } := by
  simp only [← joinBytes_eq_ofNat]
  rfl

theorem exec_jsr (w : Addr) (s : State) : exec (.jsr w) s = .next { s.push16 (s.pc - 1) with pc := w } := rfl
theorem exec_rts (s : State) : exec .rts s = .next { s.pop16.2 with pc := s.pop16.1 + 1#16 } := rfl

/-! ### Return from interrupt -/

/-- `RTI_PC_BIAS` as an address is the integer of R195. -/
theorem rtiPcBiasValue_eq_ofNat (p : Params) : rtiPcBiasValue p.rtiPcBias = BitVec.ofNat 16 (bias p) := by
  rw [bias]
  cases p.rtiPcBias <;> rfl

/-- RTI pulls the status byte, then PC, and forces B to 0 (R196). -/
theorem State.returnFromInterrupt_eq (s : State) :
    s.returnFromInterrupt =
      let p := s.bus.read (stackByte (s.sp + 1))
      let l := p.2.read (stackByte (s.sp + 2))
      let h := l.2.read (stackByte (s.sp + 3))
      { s with
        bus := h.2
        sp := s.sp + 3
        pc := BitVec.ofNat 16 ((h.1.toNat * 256 + l.1.toNat + bias s.params) % 65536)
        flags := { c := p.1.getLsbD 0, z := p.1.getLsbD 1, i := p.1.getLsbD 2, d := p.1.getLsbD 3, b := false
                   v := p.1.getLsbD 6, n := p.1.getLsbD 7 }
        inIRQ := false } := by
  have hsp2 : s.sp + 1 + 1 = s.sp + 2 := by bv_omega
  have hsp3 : s.sp + 1 + 2 = s.sp + 3 := by bv_omega
  rw [State.returnFromInterrupt, State.pop16_eq]
  simp only [rtiPcBiasValue_eq_ofNat, ofNat_add_ofNat_wraps, Flags.setByte_eq, State.pop8_value,
    State.pop8_bus, State.pop8_sp, hsp2, hsp3, stackAddr_eq_stackByte]
  rfl

/-! ### Branches -/

/-- The branch target: PC plus the signed offset, modulo 65536 (R95). -/
theorem branchTarget_eq_ofInt (rel : Byte) (pc : Addr) :
    branchTarget rel pc = BitVec.ofInt 16 (pc.toNat + rel.toInt) := by
  have hsext : BitVec.ofInt 16 rel.toInt = sext rel := rfl
  rw [branchTarget, BitVec.ofInt_add, BitVec.ofInt_natCast, BitVec.ofNat_toNat, BitVec.setWidth_eq, hsext]

/-- An instruction that is `Branch(cond)` goes to its target where `cond` holds and else does nothing (R197). -/
theorem branches_of_cond {i : Instr} {rel : Byte} {s : State} {cond : Bool} {P : Prop}
    (hexec : exec i s = branch cond rel s) (hcond : cond = true ↔ P) :
    (P → exec i s = .next { s with pc := BitVec.ofInt 16 (s.pc.toNat + rel.toInt) }) ∧ (¬ P → exec i s = .next s) := by
  rw [hexec, branch_state, branchTarget_eq_ofInt, ← hcond]
  exact ⟨fun h => by rw [if_pos h], fun h => by rw [if_neg h]⟩

end Sys2Proof.Machine

namespace Sys2Proof.Proofs

open Sys2Proof.Machine

/-- Settles O44: JSR is `Push16` of PC - 1 and RTS `Pop16` plus 1, whose states `State.push16_eq` and `State.pop16_eq`
give; what remains is each sum modulo 65536. -/
theorem jumpsCallsAndReturns : Obligations.JumpsCallsAndReturns := by
  intro lo hi s w
  refine ⟨?jmpAbs, ?jmpInd, ?jsr, ?rts, rfl, exec_jmpInd_state w s, ?execJsr, ?execRts⟩
  case jmpAbs | jmpInd | jsr | rts => all_goals exact isCodedAs_of_documented rfl rfl
  case execJsr =>
    have hback : (s.pc - 1).toNat = (s.pc.toNat + 65535) % 65536 := by bv_omega
    rw [exec_jsr, State.push16_eq, hback]
  case execRts =>
    rw [exec_rts, State.pop16_eq]
    simp only [ofNat_add_ofNat_wraps]

/-- Settles O45: RTI is the return from interrupt, whose state `State.returnFromInterrupt_eq` gives. -/
theorem rtiRestoresFlagsPcAndGuard : Obligations.RtiRestoresFlagsPcAndGuard := by
  refine ⟨isCodedAs_of_documented rfl rfl, fun s => ?exec⟩
  case exec => exact congrArg _ s.returnFromInterrupt_eq

/-- Settles O46: each branch is `Branch(cond)` on one flag (`branches_of_cond`), set or clear. -/
theorem branchesTestOneFlag : Obligations.BranchesTestOneFlag := by
  intro r s
  refine ⟨⟨?bcc, ?execBcc⟩, ⟨?bcs, ?execBcs⟩, ⟨?beq, ?execBeq⟩, ⟨?bne, ?execBne⟩, ⟨?bmi, ?execBmi⟩, ⟨?bpl, ?execBpl⟩,
    ⟨?bvc, ?execBvc⟩, ⟨?bvs, ?execBvs⟩⟩
  case bcc | bcs | beq | bne | bmi | bpl | bvc | bvs => all_goals exact isCodedAs_of_documented rfl rfl
  case execBcc => exact branches_of_cond (cond := !s.flags.c) rfl (Bool.not_eq_true' _).to_iff
  case execBcs => exact branches_of_cond (cond := s.flags.c) rfl Iff.rfl
  case execBeq => exact branches_of_cond (cond := s.flags.z) rfl Iff.rfl
  case execBne => exact branches_of_cond (cond := !s.flags.z) rfl (Bool.not_eq_true' _).to_iff
  case execBmi => exact branches_of_cond (cond := s.flags.n) rfl Iff.rfl
  case execBpl => exact branches_of_cond (cond := !s.flags.n) rfl (Bool.not_eq_true' _).to_iff
  case execBvc => exact branches_of_cond (cond := !s.flags.v) rfl (Bool.not_eq_true' _).to_iff
  case execBvs => exact branches_of_cond (cond := s.flags.v) rfl Iff.rfl

end Sys2Proof.Proofs
end

section
/-! PROOF. BRK, the flag instructions and NOP (R210-R218). The opcode decides alone how many bytes are fetched: one without
operand bytes is one read at PC. A fault of the instruction is then the fault of the step. -/

namespace Sys2Proof

/-- How many operand bytes follow a documented opcode does not depend on which legal value `TRAP_OPCODE` has. -/
theorem operandCount_of_documented {k j op : Byte} (hk : trapOpcodeLegal k = true) (hj : trapOpcodeLegal j = true)
    (h : trapOpcodeLegal op = false) : operandCount k op = operandCount j op := by
  rw [operandCount, operandCount, descriptor_of_documented hk h, descriptor_of_documented hj h]

end Sys2Proof

namespace Sys2Proof.Machine

/-- An opcode without operand bytes is fetched alone: one read at PC, PC one further (R84, R97). -/
theorem State.fetchInstr_of_no_operands {s : State}
    (h : operandCount s.params.trapOpcode (s.bus.read s.pc).1 = some 0) :
    s.fetchInstr = (decode s.params.trapOpcode [(s.bus.read s.pc).1],
      { s with pc := s.pc + 1, bus := (s.bus.read s.pc).2 }) := by
  simp only [State.fetchInstr, State.fetch8_value, h, Option.getD_some, State.fetchBytes]
  rfl

/-- A documented opcode that is an instruction by itself is fetched as that instruction (R84, R97). -/
theorem State.fetchInstr_of_isCodedAs {s : State} {op : Byte} {i : Instr} (hcoded : IsCodedAs [op] i)
    (hdoc : trapOpcodeLegal op = false) (hcount : operandCount Config.resetTrapOpcode op = some 0)
    (hlegal : trapOpcodeLegal s.params.trapOpcode = true) (hread : (s.bus.read s.pc).1 = op) :
    s.fetchInstr = (.instr i [], { s with pc := s.pc + 1, bus := (s.bus.read s.pc).2 }) := by
  have hnone : operandCount s.params.trapOpcode (s.bus.read s.pc).1 = some 0 := by
    rw [hread, operandCount_of_documented hlegal (j := Config.resetTrapOpcode) rfl hdoc, hcount]
  rw [State.fetchInstr_of_no_operands hnone, hread, hcoded _ hlegal]

/-- A step whose instruction faults is that fault: nothing is counted and no device polled (R230, R244). -/
theorem step_of_exec_fault {s t : State} {i : Instr} {rest : List Byte} {f : Fault}
    (hfetch : s.fetchInstr = (.instr i rest, t)) (hexec : exec i t = .fault f) : step s = .fault f := by
  simp only [step, hostTurn, cpuStep, hfetch, hexec]

theorem isCodedAs_brk : IsCodedAs [0x00#8] .brk := isCodedAs_of_documented rfl rfl

theorem exec_brk (s : State) : exec .brk s = .fault (.unimplemented 0x00#8 s) := rfl

end Sys2Proof.Machine

namespace Sys2Proof.Proofs

open Sys2Proof.Machine

/-- Settles O8: BRK is fetched alone (`State.fetchInstr_of_isCodedAs`), faults on the state that fetch left, and its fault is
the step's. -/
theorem brkIsFatal : Obligations.BrkIsFatal := by
  refine ⟨isCodedAs_brk, exec_brk, fun s hlegal hread => ?step⟩
  case step =>
    exact step_of_exec_fault (State.fetchInstr_of_isCodedAs isCodedAs_brk rfl rfl hlegal hread) (exec_brk _)

/-- Settles O48: the opcodes are documented, and each instruction's meaning is the one flag assignment its rule states. -/
theorem flagInstructionsWriteOneFlag : Obligations.FlagInstructionsWriteOneFlag := by
  refine ⟨?clc, ?cld, ?cli, ?clv, ?sec, ?sed, ?sei, ?nop, fun s => ⟨?execClc, ?execCld, ?execCli, ?execClv, ?execSec,
    ?execSed, ?execSei, ?execNop⟩⟩
  case clc | cld | cli | clv | sec | sed | sei | nop => exact isCodedAs_of_documented rfl rfl
  case execClc | execCld | execCli | execClv | execSec | execSed | execSei | execNop => rfl

end Sys2Proof.Proofs
end

section
/-! PROOF. Interrupt entry (R237-R239): the frame it pushes and the word it loads, said once in the words of R238, and the
boundary that calls it. -/

namespace Sys2Proof.Machine

open Sys2Proof.Said

/-- A difference of addresses is the difference of the integers modulo 65536. -/
theorem toNat_sub_ofNat_wraps (w : Addr) {n : Nat} (h : n ≤ 65536) :
    (w - BitVec.ofNat 16 n).toNat = (w.toNat + 65536 - n) % 65536 := by
  rw [BitVec.toNat_sub, BitVec.toNat_ofNat]
  omega

/-- The PC an interrupt pushes: PC less `RTI_PC_BIAS`, modulo 65536 (R195, R238). -/
theorem toNat_sub_rtiPcBiasValue (w : Addr) (p : Params) :
    (w - rtiPcBiasValue p.rtiPcBias).toNat = (w.toNat + 65536 - bias p) % 65536 := by
  have hbias : bias p ≤ 65536 := by rw [bias]; split <;> decide
  rw [rtiPcBiasValue_eq_ofNat, toNat_sub_ofNat_wraps w hbias]

/-- The three bytes of an interrupt frame: PC less `RTI_PC_BIAS`, high byte then low byte, then the status byte (R238). -/
theorem State.framed_eq (s : State) :
    let back := (s.pc.toNat + 65536 - bias s.params) % 65536
    s.framed = ((s.bus.write (stackByte s.sp) (BitVec.ofNat 8 (back / 256))).write (stackByte (s.sp - 1))
      (BitVec.ofNat 8 (back % 256))).write (stackByte (s.sp - 2)) s.flags.getByte := by
  have hsp : s.sp - 1 - 1 = s.sp - 2 := by bv_omega
  simp only [State.framed, highByte_eq_ofNat, lowByte_eq_ofNat, toNat_sub_rtiPcBiasValue, stackAddr_eq_stackByte, hsp]

/-- Interrupt entry pushes the frame, sets the guard and loads PC with the little-endian word at 0xFFFE (R238, R239). -/
theorem State.takeInterrupt_eq (s : State) :
    s.takeInterrupt =
      let l := s.framed.read 0xFFFE#16
      let h := l.2.read 0xFFFF#16
      { s with
        bus := h.2
        sp := s.sp - 3
        pc := BitVec.ofNat 16 (h.1.toNat * 256 + l.1.toNat)
        inIRQ := true } := by
  have hsp : s.sp - 1 - 1 - 1 = s.sp - 3 := by bv_omega
  have hvector : Config.irqVector + 1 = 0xFFFF#16 := rfl
  rw [State.takeInterrupt_state, State.takeInterrupt_bus, State.takeInterrupt_pc, joinBytes_eq_ofNat, hsp, hvector]
  rfl

/-- After a completed Step the host polls once; a request calls `Interrupt` on what the poll left (R238, R244). -/
theorem step_of_request {r s : State} (hcpu : cpuStep r = .next s) (hpoll : s.bus.poll.1 = true) :
    step r = .next (State.interrupt { s with bus := s.bus.poll.2 }) := by
  simp only [step, hostTurn, hcpu, State.boundary, hpoll, if_true]

end Sys2Proof.Machine

namespace Sys2Proof.Proofs

open Sys2Proof.Machine

/-- Settles O50: the call is `step_of_request`; masked, `State.interrupt_masked`; taken, it is the interrupt entry, whose
state `State.takeInterrupt_eq` and `State.framed_eq` give. -/
theorem interruptSavesAndVectors : Obligations.InterruptSavesAndVectors := by
  refine fun s => ⟨fun r => step_of_request, State.interrupt_masked, fun hi hq => ?taken⟩
  case taken => rw [State.interrupt_taken hi hq, State.takeInterrupt_eq, State.framed_eq]

end Sys2Proof.Proofs
end

section
/-! PROOF. Reset (R260): the draws and the cleared fields, then PC from one word read at the reset vector. -/

namespace Sys2Proof.Machine

/-- A word read is two byte reads, low byte first, and leaves on the state only what they leave on the bus (R50). -/
theorem State.readWord_eq (k : Addr) (s : State) :
    s.readWord k =
      let lo := s.bus.read k
      let hi := lo.2.read (k + 1)
      (BitVec.ofNat 16 (hi.1.toNat * 256 + lo.1.toNat), { s with bus := hi.2 }) :=
  Prod.ext ((State.readWord_value k s).trans (joinBytes_eq_ofNat _ _)) (State.readWord_state k s)

end Sys2Proof.Machine

namespace Sys2Proof.Proofs

open Sys2Proof.Machine

/-- Settles O20: PC is the word read at the reset vector (`State.readWord_eq`), whose high byte is at 0xFFFD; that read
changes nothing but the bus, so every other field is the one reset assigned. -/
theorem resetSetsTheCoreState : Obligations.ResetSetsTheCoreState := by
  intro r s
  have hhigh : Config.resetVector + 1 = 0xFFFD#16 := rfl
  simp only [State.resetWith, State.readWord_eq, hhigh]
  rfl

end Sys2Proof.Proofs
end

section
/-! PROOF. The decoder and the encoder (R80-R83, R99). From an instruction to its bytes and back: its opcode is documented, so
one `TRAP_OPCODE` stands for all of them and decoding computes. From bytes to an instruction: the table is gone through once
(`opcodeTable_builds`), which says what every row makes of its operand bytes and how that is encoded. -/

namespace Sys2Proof

open Sys2Proof.Machine

/-! ### Decoding an encoding -/

/-- Decoding a documented opcode need be done under one `TRAP_OPCODE` only, that of `State.reset`. -/
theorem decode_eq_of_documented {k op : Byte} {tail : List Byte} {d : Decoded} (hk : trapOpcodeLegal k = true)
    (hdoc : trapOpcodeLegal op = false) (hdec : decode Config.resetTrapOpcode (op :: tail) = d) :
    decode k (op :: tail) = d := (decode_of_documented tail hk rfl hdoc).trans hdec

/-- The byte `TRAP_OPCODE` is TRAP, whatever value it has: TRAP's descriptor comes first (R82, R97). -/
theorem decode_trap (k : Byte) (rest : List Byte) : decode k (k :: rest) = .instr .trap rest := by
  rw [decode, descriptor_trap]
  rfl

/-- Every instruction with a row in the table decodes from its encoding. A two-byte operand is split by the encoder and
joined again by the decoder, which is the one step that does not compute. -/
theorem decode_encode_documented {k : Byte} (hk : trapOpcodeLegal k = true) {i : Instr} (hi : i ≠ .trap)
    (rest : List Byte) : decode k (encode k i ++ rest) = .instr i rest := by
  cases i
  case trap => contradiction
  case ldaAbs w | ldaAbsX w | ldaAbsY w | ldxAbs w | ldxAbsY w | ldyAbs w | ldyAbsX w | staAbs w | staAbsX w | staAbsY w |
      stxAbs w | styAbs w | adcAbs w | adcAbsX w | adcAbsY w | sbcAbs w | sbcAbsX w | sbcAbsY w | cmpAbs w | cmpAbsX w |
      cmpAbsY w | cpxAbs w | cpyAbs w | incAbs w | incAbsX w | decAbs w | decAbsX w | andAbs w | andAbsX w | andAbsY w |
      oraAbs w | oraAbsX w | oraAbsY w | eorAbs w | eorAbsX w | eorAbsY w | bitAbs w | aslAbs w | aslAbsX w | lsrAbs w |
      lsrAbsX w | rolAbs w | rolAbsX w | rorAbs w | rorAbsX w | jmpAbs w | jmpInd w | jsr w =>
    conv_rhs => rw [← joinBytes_high_low w]
    exact decode_eq_of_documented hk rfl rfl
  all_goals exact decode_eq_of_documented hk rfl rfl

/-! ### The bytes of a decoded instruction -/

/-- The operand bytes of a mode: none, one byte, or a word, its low byte first (R81). -/
def Mode.operandsOf (m : Mode) (b : Byte) (w : Addr) : List Byte :=
  match m.operandBytes with
  | 0 => []
  | 1 => [b]
  | _ => [lowByte w, highByte w]

/-- Every row's handler supports its mode (R103), and the instruction it makes of its operand bytes is encoded by the row's
opcode and those bytes (R80, R83). -/
theorem opcodeTable_builds (k b1 b2 : Byte) : ∀ r ∈ opcodeTable, ∃ i,
    build r.handler r.mode b1 b2 = some i ∧ encode k i = r.opcode :: r.mode.operandsOf b1 (joinBytes b2 b1) := by
  have htable : ∀ r ∈ opcodeTable, (build r.handler r.mode b1 b2).map (encode k) =
      some (r.opcode :: r.mode.operandsOf b1 (joinBytes b2 b1)) := List.map_inj_left.mp rfl
  exact fun r hr => Option.map_eq_some_iff.mp (htable r hr)

/-- Every byte that R99 does not list has a row (R83, R99). -/
theorem exists_row_of_documented : ∀ op : Byte, op.toNat ∉ undocumentedOpcodes → ∃ r ∈ opcodeTable, r.opcode = op := by
  decide +kernel

/-- A descriptor is TRAP's or a row's; either way its handler supports its mode (R82, R103), and what it makes of operand
bytes is encoded by them. -/
theorem descriptor_builds {k op : Byte} {h : Mnemonic} {m : Mode} (hd : descriptor k op = some (h, m)) (b1 b2 : Byte) :
    ∃ i, build h m b1 b2 = some i ∧ encode k i = op :: m.operandsOf b1 (joinBytes b2 b1) := by
  rw [descriptor] at hd
  split at hd
  · cases hd
    exact ⟨.trap, rfl, by simp_all [encode, Mode.operandsOf, Mode.operandBytes]⟩
  · obtain ⟨r, hr, heq⟩ := Option.map_eq_some_iff.mp hd
    cases heq
    have hop : (r.opcode == op) = true := List.find?_some (p := fun r : Row => r.opcode == op) hr
    exact eq_of_beq hop ▸ opcodeTable_builds k b1 b2 r (List.mem_of_find?_eq_some hr)

/-- The end of decoding gives the instruction the descriptor makes, never `UnsupportedMode` (R103, R232). -/
theorem finishDecode_of_descriptor {k op : Byte} {h : Mnemonic} {m : Mode} (hd : descriptor k op = some (h, m))
    (b1 b2 : Byte) (rest : List Byte) : ∃ i, finishDecode op h m b1 b2 rest = .instr i rest ∧
      encode k i = op :: m.operandsOf b1 (joinBytes b2 b1) := by
  obtain ⟨i, hbuild, hencode⟩ := descriptor_builds hd b1 b2
  exact ⟨i, by rw [finishDecode, hbuild], hencode⟩

/-- All decoding can give: a stream that ends too soon, an opcode with no descriptor, or an instruction, of whose encoding
the stream is a continuation. -/
theorem decode_cases (k : Byte) (bytes : List Byte) :
    decode k bytes = .truncated ∨ (∃ op, decode k bytes = .unknownOpcode op) ∨
      ∃ i rest, decode k bytes = .instr i rest ∧ bytes = encode k i ++ rest := by
  cases bytes with
  | nil => exact .inl rfl
  | cons op tail =>
    rw [decode]
    cases hd : descriptor k op with
    | none => exact .inr (.inl ⟨op, rfl⟩)
    | some d =>
      obtain ⟨h, m⟩ := d
      simp only
      split
      · rename_i tail _ _ hm
        obtain ⟨i, hi, he⟩ := finishDecode_of_descriptor hd 0 0 tail
        exact .inr (.inr ⟨i, tail, hi, by rw [he, Mode.operandsOf, hm]; rfl⟩)
      · rename_i b1 rest hm
        obtain ⟨i, hi, he⟩ := finishDecode_of_descriptor hd b1 0 rest
        exact .inr (.inr ⟨i, rest, hi, by rw [he, Mode.operandsOf, hm]; rfl⟩)
      · rename_i b1 b2 rest hm
        obtain ⟨i, hi, he⟩ := finishDecode_of_descriptor hd b1 b2 rest
        exact .inr (.inr ⟨i, rest, hi, by rw [he, Mode.operandsOf, hm]; simp⟩)
      · exact .inl rfl

end Sys2Proof

namespace Sys2Proof.Proofs

open Sys2Proof.Machine

/-- Settles O1: TRAP is its own opcode (`decode_trap`), every other instruction has a row (`decode_encode_documented`). -/
theorem decodeOfEncodeIsTheInstruction : Obligations.DecodeOfEncodeIsTheInstruction := by
  intro k i rest hk
  refine ⟨by simp [Instr.wellFormed, hk], ?decode⟩
  case decode =>
    by_cases hi : i = .trap
    · subst hi
      exact decode_trap k rest
    · exact decode_encode_documented hk hi rest

/-- Settles O2: where decoding gives an instruction, the stream continues its encoding (`decode_cases`). -/
theorem bytesOfADecodedInstructionAreItsEncoding : Obligations.BytesOfADecodedInstructionAreItsEncoding := by
  intro k bytes rest i _ hdec
  rcases decode_cases k bytes with h | ⟨op, h⟩ | ⟨j, after, h, hbytes⟩ <;> rw [hdec] at h <;> cases h
  exact hbytes

/-- Settles O3: each word has a documented opcode and decodes, by computation, under the `TRAP_OPCODE` of `State.reset`. -/
theorem sampleWordsDecode : Obligations.SampleWordsDecode := by
  refine ⟨?_, ?_, ?_, ?_, ?_, ?_, ?_, ?_, ?_, ?_, ?_, ?_, ?_, ?_⟩
  all_goals exact isCodedAs_of_documented rfl rfl

/-- Settles O4: an undocumented byte other than `TRAP_OPCODE` has no row (`descriptor_of_undocumented`); every other byte has
a descriptor, TRAP's or its row's (`exists_row_of_documented`). -/
theorem undocumentedBytesHaveNoDescriptor : Obligations.UndocumentedBytesHaveNoDescriptor := by
  intro k op _
  refine ⟨fun hnone => ?undocumented, fun ⟨hundoc, hne⟩ => descriptor_of_undocumented hundoc hne⟩
  case undocumented =>
    have hne : op ≠ k := by
      rintro rfl
      cases (descriptor_trap op).symm.trans hnone
    refine ⟨by_contra fun hdoc => ?row, hne⟩
    case row =>
      obtain ⟨r, hr, hop⟩ := exists_row_of_documented op hdoc
      rw [descriptor, if_neg hne, Option.map_eq_none_iff, List.find?_eq_none] at hnone
      exact hnone r hr (beq_iff_eq.mpr hop)

end Sys2Proof.Proofs
end

section
/-! PROOF. What an instruction writes (R20-R27, R33) and what a step does. `Effect` is the spec's lists of writers read the
other way round: per group of instructions, the fields of the state it may change. That every instruction has its effect is
shown once (`exec_effect`); the rules about the guard, the Break flag, the registers and the flags are read off it. -/

namespace Sys2Proof.Machine

/-- What an instruction that completes may have changed, by its mnemonic and its mode: every field not named is as before, but
that `setA`, `setX` and `setY` also write Z and N. -/
inductive Effect (n : Mnemonic) (m : Mode) (s : State) : State → Prop
  | setA (bus : Bus) (r : Byte) (hn : n ∈ [.LDA, .TXA, .TYA, .AND, .ORA, .EOR]) :
      Effect n m s (State.setA r { s with bus := bus })
  | setX (bus : Bus) (r : Byte) (hn : n ∈ [.LDX, .TAX, .TSX, .INX, .DEX]) :
      Effect n m s (State.setX r { s with bus := bus })
  | setY (bus : Bus) (r : Byte) (hn : n ∈ [.LDY, .TAY, .INY, .DEY]) : Effect n m s (State.setY r { s with bus := bus })
  | arithmetic (bus : Bus) (r : Byte) (c z v neg : Bool) (hn : n ∈ [.ADC, .SBC]) :
      Effect n m s { s with bus := bus, a := r, flags := { s.flags with c := c, z := z, v := v, n := neg } }
  | compare (bus : Bus) (c z neg : Bool) (hn : n ∈ [.CMP, .CPX, .CPY]) :
      Effect n m s { s with bus := bus, flags := { s.flags with c := c, z := z, n := neg } }
  | test (bus : Bus) (z v neg : Bool) (hn : n ∈ [.BIT]) :
      Effect n m s { s with bus := bus, flags := { s.flags with z := z, v := v, n := neg } }
  | store (bus : Bus) (hn : n ∈ [.STA, .STX, .STY]) : Effect n m s { s with bus := bus }
  | count (bus : Bus) (z neg : Bool) (hn : n ∈ [.INC, .DEC]) :
      Effect n m s { s with bus := bus, flags := { s.flags with z := z, n := neg } }
  | shiftMemory (bus : Bus) (c z neg : Bool) (hn : n ∈ [.ASL, .LSR, .ROL, .ROR]) :
      Effect n m s { s with bus := bus, flags := { s.flags with c := c, z := z, n := neg } }
  | shiftA (r : Byte) (c z neg : Bool) (hm : m = .ACC) (hn : n ∈ [.ASL, .LSR, .ROL, .ROR]) :
      Effect n m s { s with a := r, flags := { s.flags with c := c, z := z, n := neg } }
  | setSp (sp : Byte) (hn : n ∈ [.TXS]) : Effect n m s { s with sp := sp }
  | push (bus : Bus) (sp : Byte) (hn : n ∈ [.PHA, .PHP]) : Effect n m s { s with bus := bus, sp := sp }
  | pullA (bus : Bus) (sp r : Byte) (hn : n ∈ [.PLA]) : Effect n m s (State.setA r { s with bus := bus, sp := sp })
  | pullFlags (bus : Bus) (sp p : Byte) (hn : n ∈ [.PLP]) :
      Effect n m s { s with bus := bus, sp := sp, flags := s.flags.setByte p }
  | jump (bus : Bus) (pc : Addr) (hn : n ∈ [.JMP]) : Effect n m s { s with bus := bus, pc := pc }
  | branch (pc : Addr) (hm : m = .REL) (hn : n ∈ [.BCC, .BCS, .BEQ, .BNE, .BMI, .BPL, .BVC, .BVS]) :
      Effect n m s { s with pc := pc }
  | call (bus : Bus) (sp : Byte) (pc : Addr) (hn : n ∈ [.JSR, .RTS]) : Effect n m s { s with bus := bus, sp := sp, pc := pc }
  | returnFromInterrupt (hn : n ∈ [.RTI]) : Effect n m s s.returnFromInterrupt
  | setC (c : Bool) (hn : n ∈ [.CLC, .SEC]) : Effect n m s { s with flags := { s.flags with c := c } }
  | setI (i : Bool) (hn : n ∈ [.CLI, .SEI]) : Effect n m s { s with flags := { s.flags with i := i } }
  | setD (d : Bool) (hn : n ∈ [.CLD, .SED]) : Effect n m s { s with flags := { s.flags with d := d } }
  | setV (v : Bool) (hn : n ∈ [.CLV]) : Effect n m s { s with flags := { s.flags with v := v } }
  | nothing (hn : n ∈ [.NOP]) : Effect n m s s
  | callback (r : TrapReturn) (hn : n ∈ [.TRAP]) : Effect n m s (s.afterTrap r)

section
variable {n : Mnemonic} {m : Mode} {s t : State}

/-- Reading an operand changes the bus alone, so only what is done with it counts. -/
theorem effect_of_withOperand {f : ReadForm} {use : Byte → State → State} (h : withOperand f use s = .next t)
    (huse : ∀ (v : Byte) (bus : Bus), Effect n m s (use v { s with bus := bus })) : Effect n m s t := by
  rw [withOperand, operand_state] at h
  cases h
  exact huse _ _

theorem effect_of_loadA {f : ReadForm} (h : loadA f s = .next t) (hn : n ∈ [.LDA, .TXA, .TYA, .AND, .ORA, .EOR]) :
    Effect n m s t := effect_of_withOperand h fun _ _ => .setA _ _ hn

theorem effect_of_logicA {op : Byte → Byte → Byte} {f : ReadForm} (h : logicA op f s = .next t)
    (hn : n ∈ [.LDA, .TXA, .TYA, .AND, .ORA, .EOR]) : Effect n m s t := effect_of_withOperand h fun _ _ => .setA _ _ hn

theorem effect_of_loadX {f : ReadForm} (h : loadX f s = .next t) (hn : n ∈ [.LDX, .TAX, .TSX, .INX, .DEX]) :
    Effect n m s t := effect_of_withOperand h fun _ _ => .setX _ _ hn

theorem effect_of_loadY {f : ReadForm} (h : loadY f s = .next t) (hn : n ∈ [.LDY, .TAY, .INY, .DEY]) :
    Effect n m s t := effect_of_withOperand h fun _ _ => .setY _ _ hn

theorem effect_of_addA {f : ReadForm} (h : addA f s = .next t) (hn : n ∈ [.ADC, .SBC]) : Effect n m s t :=
  effect_of_withOperand h fun _ _ => .arithmetic _ _ _ _ _ _ hn

theorem effect_of_subtractA {f : ReadForm} (h : subtractA f s = .next t) (hn : n ∈ [.ADC, .SBC]) : Effect n m s t :=
  effect_of_withOperand h fun _ _ => .arithmetic _ _ _ _ _ _ hn

theorem effect_of_compareWith {reg : State → Byte} {f : ReadForm} (h : compareWith reg f s = .next t)
    (hn : n ∈ [.CMP, .CPX, .CPY]) : Effect n m s t := effect_of_withOperand h fun _ _ => .compare _ _ _ _ hn

theorem effect_of_testBits {f : ReadForm} (h : testBits f s = .next t) (hn : n ∈ [.BIT]) : Effect n m s t :=
  effect_of_withOperand h fun _ _ => .test _ _ _ _ hn

theorem effect_of_storeTo {f : MemForm} {v : Byte} (h : storeTo f v s = .next t) (hn : n ∈ [.STA, .STX, .STY]) :
    Effect n m s t := by
  rw [storeTo_state] at h
  cases h
  exact .store _ hn

/-- A read-modify-write changes the bus and the flags alone. -/
theorem effect_of_modifyMem {f : MemForm} {g : Byte → Byte} {flags : Byte → Flags → Flags}
    (h : modifyMem f g flags s = .next t)
    (hflags : ∀ (v : Byte) (bus : Bus), Effect n m s { s with bus := bus, flags := flags v s.flags }) :
    Effect n m s t := by
  rw [modifyMem_state] at h
  cases h
  exact hflags _ _

theorem effect_of_incrementAt {f : MemForm} (h : incrementAt f s = .next t) (hn : n ∈ [.INC, .DEC]) : Effect n m s t :=
  effect_of_modifyMem h fun _ _ => .count _ _ _ hn

theorem effect_of_decrementAt {f : MemForm} (h : decrementAt f s = .next t) (hn : n ∈ [.INC, .DEC]) : Effect n m s t :=
  effect_of_modifyMem h fun _ _ => .count _ _ _ hn

theorem effect_of_shift_mem {f : MemForm} {op : ShiftOp} (h : shift (.mem f) op s = .next t)
    (hn : n ∈ [.ASL, .LSR, .ROL, .ROR]) : Effect n m s t := by
  rw [shift] at h
  exact effect_of_modifyMem h fun _ _ => .shiftMemory _ _ _ _ hn

theorem effect_of_branch {cond : Bool} {rel : Byte} (h : branch cond rel s = .next t) (hm : m = .REL)
    (hn : n ∈ [.BCC, .BCS, .BEQ, .BNE, .BMI, .BPL, .BVC, .BVS]) : Effect n m s t := by
  rw [branch_state] at h
  cases h
  exact .branch _ hm hn

theorem effect_of_execTrap (h : execTrap s = .next t) (hn : n ∈ [.TRAP]) : Effect n m s t := by
  rw [execTrap] at h
  split at h <;> cases h
  exact .callback _ hn

end

/-- Every instruction that completes has its effect. -/
theorem exec_effect {i : Instr} {s t : State} (h : exec i s = .next t) : Effect i.mnemonic i.mode s t := by
  cases i
  case brk => cases h
  case trap => exact effect_of_execTrap h (List.mem_of_elem_eq_true rfl)
  case bcc | bcs | beq | bne | bmi | bpl | bvc | bvs =>
    all_goals exact effect_of_branch h rfl (List.mem_of_elem_eq_true rfl)
  case staZp | staZpX | staAbs | staAbsX | staAbsY | staIndX | staIndY | stxZp | stxZpY | stxAbs | styZp | styZpX |
      styAbs => all_goals exact effect_of_storeTo h (List.mem_of_elem_eq_true rfl)
  case incZp | incZpX | incAbs | incAbsX => all_goals exact effect_of_incrementAt h (List.mem_of_elem_eq_true rfl)
  case decZp | decZpX | decAbs | decAbsX => all_goals exact effect_of_decrementAt h (List.mem_of_elem_eq_true rfl)
  case aslZp | aslZpX | aslAbs | aslAbsX | lsrZp | lsrZpX | lsrAbs | lsrAbsX | rolZp | rolZpX | rolAbs | rolAbsX | rorZp |
      rorZpX | rorAbs | rorAbsX => all_goals exact effect_of_shift_mem h (List.mem_of_elem_eq_true rfl)
  case ldaImm | ldaZp | ldaZpX | ldaAbs | ldaAbsX | ldaAbsY | ldaIndX | ldaIndY =>
    all_goals exact effect_of_loadA h (List.mem_of_elem_eq_true rfl)
  case andImm | andZp | andZpX | andAbs | andAbsX | andAbsY | andIndX | andIndY | oraImm | oraZp | oraZpX | oraAbs | oraAbsX |
      oraAbsY | oraIndX | oraIndY | eorImm | eorZp | eorZpX | eorAbs | eorAbsX | eorAbsY | eorIndX | eorIndY =>
    all_goals exact effect_of_logicA h (List.mem_of_elem_eq_true rfl)
  case ldxImm | ldxZp | ldxZpY | ldxAbs | ldxAbsY => all_goals exact effect_of_loadX h (List.mem_of_elem_eq_true rfl)
  case ldyImm | ldyZp | ldyZpX | ldyAbs | ldyAbsX => all_goals exact effect_of_loadY h (List.mem_of_elem_eq_true rfl)
  case adcImm | adcZp | adcZpX | adcAbs | adcAbsX | adcAbsY | adcIndX | adcIndY =>
    all_goals exact effect_of_addA h (List.mem_of_elem_eq_true rfl)
  case sbcImm | sbcZp | sbcZpX | sbcAbs | sbcAbsX | sbcAbsY | sbcIndX | sbcIndY =>
    all_goals exact effect_of_subtractA h (List.mem_of_elem_eq_true rfl)
  case cmpImm | cmpZp | cmpZpX | cmpAbs | cmpAbsX | cmpAbsY | cmpIndX | cmpIndY | cpxImm | cpxZp | cpxAbs | cpyImm | cpyZp |
      cpyAbs => all_goals exact effect_of_compareWith h (List.mem_of_elem_eq_true rfl)
  case bitZp | bitAbs => all_goals exact effect_of_testBits h (List.mem_of_elem_eq_true rfl)
  all_goals cases h
  case aslAcc | lsrAcc | rolAcc | rorAcc => all_goals exact .shiftA _ _ _ _ rfl (List.mem_of_elem_eq_true rfl)
  case txa | tya => all_goals exact .setA _ _ (List.mem_of_elem_eq_true rfl)
  case tax | tsx | inx | dex => all_goals exact .setX _ _ (List.mem_of_elem_eq_true rfl)
  case tay | iny | dey => all_goals exact .setY _ _ (List.mem_of_elem_eq_true rfl)
  case txs => exact .setSp _ (List.mem_of_elem_eq_true rfl)
  case pha | php => all_goals exact .push _ _ (List.mem_of_elem_eq_true rfl)
  case pla => exact .pullA _ _ _ (List.mem_of_elem_eq_true rfl)
  case plp => exact .pullFlags _ _ _ (List.mem_of_elem_eq_true rfl)
  case jmpAbs | jmpInd => all_goals exact .jump _ _ (List.mem_of_elem_eq_true rfl)
  case jsr | rts => all_goals exact .call _ _ _ (List.mem_of_elem_eq_true rfl)
  case rti => exact .returnFromInterrupt (List.mem_of_elem_eq_true rfl)
  case clc | sec => all_goals exact .setC _ (List.mem_of_elem_eq_true rfl)
  case cli | sei => all_goals exact .setI _ (List.mem_of_elem_eq_true rfl)
  case cld | sed => all_goals exact .setD _ (List.mem_of_elem_eq_true rfl)
  case clv => exact .setV _ (List.mem_of_elem_eq_true rfl)
  case nop => exact .nothing (List.mem_of_elem_eq_true rfl)

/-- RTI is the one instruction of its mnemonic. -/
theorem eq_rti_of_mnemonic {i : Instr} (h : i.mnemonic = .RTI) : i = .rti := by
  cases i
  case rti => rfl
  all_goals cases h

/-- No effect but RTI's names the guard or B (R26, R33). -/
theorem exec_keeps_guard_and_break {i : Instr} {s t : State} (hi : i ≠ .rti) (h : exec i s = .next t) :
    t.inIRQ = s.inIRQ ∧ t.flags.b = s.flags.b := by
  cases exec_effect h
  case returnFromInterrupt hn => exact absurd (eq_rti_of_mnemonic (List.mem_singleton.mp hn)) hi
  case callback => rw [State.afterTrap_state]; exact ⟨rfl, rfl⟩
  all_goals exact ⟨rfl, rfl⟩

theorem exec_rti_clears {s t : State} (h : exec .rti s = .next t) : t.inIRQ = false ∧ t.flags.b = false := by
  cases h
  exact ⟨rfl, rfl⟩

/-! ### Completion -/

/-- Every instruction but BRK and TRAP completes in every state (R235). -/
theorem exec_completes {i : Instr} (hbrk : i ≠ .brk) (htrap : i ≠ .trap) (s : State) : ∃ t, exec i s = .next t := by
  cases i
  case brk | trap => all_goals contradiction
  all_goals exact ⟨_, rfl⟩

theorem exec_trap_of_returns {s : State} {r : TrapReturn} (h : s.trapResponse = .returns r) :
    exec .trap s = .next (s.afterTrap r) := by rw [exec, execTrap, h]

theorem exec_trap_of_neverReturns {s : State} (h : s.trapResponse = .neverReturns) :
    exec .trap s = .fault (.trapNeverReturns s.a s) := by rw [exec, execTrap, h]

/-- The two faults an instruction can raise: BRK's, and TRAP's where the callback never returns (R234, U11). -/
theorem exec_fault {i : Instr} {s : State} {f : Fault} (h : exec i s = .fault f) :
    f = .unimplemented 0x00#8 s ∨ f = .trapNeverReturns s.a s := by
  by_cases hbrk : i = .brk
  · subst hbrk
    cases h
    exact .inl rfl
  by_cases htrap : i = .trap
  · subst htrap
    cases hr : s.trapResponse with
    | returns r => rw [exec_trap_of_returns hr] at h; cases h
    | neverReturns => rw [exec_trap_of_neverReturns hr] at h; cases h; exact .inr rfl
  obtain ⟨t, ht⟩ := exec_completes hbrk htrap s
  rw [ht] at h
  cases h

/-! ### The step -/

theorem finishDecode_rest {op b1 b2 : Byte} {handler : Mnemonic} {m : Mode} {after rest : List Byte} {i : Instr}
    (h : finishDecode op handler m b1 b2 after = .instr i rest) : after = rest := by
  rw [finishDecode] at h
  split at h <;> cases h
  rfl

/-- The bytes of a decoded instruction are its opcode, as many operand bytes as the opcode counts, and the rest (R80). -/
theorem operandCount_of_decode {k op : Byte} {tail rest : List Byte} {i : Instr}
    (h : decode k (op :: tail) = .instr i rest) : ∃ n, operandCount k op = some n ∧ tail.length = n + rest.length := by
  rw [decode] at h
  rw [operandCount]
  cases hd : descriptor k op with
  | none => rw [hd] at h; cases h
  | some d =>
    refine ⟨d.2.operandBytes, rfl, ?_⟩
    rw [hd] at h
    simp only at h
    split at h
    · rename_i hm
      rw [hm, ← finishDecode_rest h, Nat.zero_add]
    · rename_i hm
      rw [hm, ← finishDecode_rest h, List.length_cons, Nat.add_comm]
    · rename_i hm
      rw [hm, ← finishDecode_rest h, List.length_cons, List.length_cons]
      omega
    · cases h

/-- Bytes at PC that decode to an instruction, with none left, are the ones `Step` fetches (R84, R97). -/
theorem State.fetchInstr_of_decode {s : State} {n : Nat} {i : Instr}
    (h : decode s.params.trapOpcode (s.fetchBytes n).1 = .instr i []) : s.fetchInstr = (.instr i [], (s.fetchBytes n).2) := by
  cases n with
  | zero => cases h
  | succ n =>
    obtain ⟨c, hc, hlength⟩ := operandCount_of_decode h
    have hn : c = n := by simpa [State.fetchBytes_length] using hlength.symm
    have hfetch : s.fetchInstr = (decode s.params.trapOpcode (s.fetchBytes (n + 1)).1, (s.fetchBytes (n + 1)).2) := by
      rw [State.fetchInstr, hc, hn]
      rfl
    rw [hfetch, h]

theorem cpuStep_of_exec_next {s t u : State} {i : Instr} {rest : List Byte} (hfetch : s.fetchInstr = (.instr i rest, t))
    (hexec : exec i t = .next u) : cpuStep s = .next { u with icount := u.icount + 1 } := by
  simp only [cpuStep, hfetch, hexec]

/-- After a completed Step comes the boundary (R244). -/
theorem step_of_cpuStep_next {s t : State} (h : cpuStep s = .next t) : step s = .next t.boundary := by
  simp only [step, hostTurn, h]

theorem step_of_cpuStep_fault {s : State} {f : Fault} (h : cpuStep s = .fault f) : step s = .fault f := by
  simp only [step, hostTurn, h]

@[simp] theorem State.fetchInstr_icount (s : State) : s.fetchInstr.2.icount = s.icount := by
  obtain ⟨n, h⟩ := s.fetchInstr_state
  rw [h]

@[simp] theorem State.fetchInstr_params (s : State) : s.fetchInstr.2.params = s.params := by
  obtain ⟨n, h⟩ := s.fetchInstr_state
  rw [h]

@[simp] theorem State.fetchInstr_flags (s : State) : s.fetchInstr.2.flags = s.flags := by
  obtain ⟨n, h⟩ := s.fetchInstr_state
  rw [h]

/-- A step that completes counts one instruction and keeps the parameters (R27, R4). -/
theorem step_icount_params {s t : State} (h : step s = .next t) : t.icount = s.icount + 1 ∧ t.params = s.params := by
  obtain ⟨i, rest, u, -, hexec, rfl⟩ := step_next h
  obtain ⟨hicount, hparams⟩ := exec_icount_params hexec
  rw [State.boundary_state]
  exact ⟨by rw [hicount, State.fetchInstr_icount], by rw [hparams, State.fetchInstr_params]⟩

/-- A step that completes leaves B clear where it was clear: no instruction sets it, and neither does a boundary (R33). -/
theorem step_keeps_break_clear {s t : State} (h : step s = .next t) (hb : s.flags.b = false) : t.flags.b = false := by
  obtain ⟨i, rest, u, -, hexec, rfl⟩ := step_next h
  rw [← State.fetchInstr_flags] at hb
  rw [State.boundary_state]
  by_cases hi : i = .rti
  · subst hi
    exact (exec_rti_clears hexec).2
  · exact (exec_keeps_guard_and_break hi hexec).2.trans hb

/-- No bytes decode to a handler with a mode it does not support, under any `TRAP_OPCODE` (R103, R232). -/
theorem decode_ne_unsupportedMode (k : Byte) (bytes : List Byte) (op : Byte) (m : Mode) :
    decode k bytes ≠ .unsupportedMode op m := by
  intro h
  rcases decode_cases k bytes with h' | ⟨op', h'⟩ | ⟨i, rest, h', -⟩ <;> rw [h] at h' <;> cases h'

theorem State.fetchInstr_ne_unsupportedMode (s : State) (op : Byte) (m : Mode) :
    s.fetchInstr.1 ≠ .unsupportedMode op m := by
  rw [State.fetchInstr]
  dsimp only
  exact decode_ne_unsupportedMode _ _ op m

end Sys2Proof.Machine

namespace Sys2Proof.Proofs

open Sys2Proof.Machine

/-- Settles O10: BRK and TRAP aside every instruction completes (`exec_completes`); TRAP does where its callback returns. -/
theorem everyOtherInstructionCompletes : Obligations.EveryOtherInstructionCompletes := by
  intro i s hbrk hreturns
  by_cases htrap : i = .trap
  · subst htrap
    cases hr : s.trapResponse with
    | returns r => exact ⟨_, exec_trap_of_returns hr⟩
    | neverReturns => exact absurd hr (hreturns rfl)
  · exact exec_completes hbrk htrap s

/-- Settles O11: RTI clears the guard; no other effect names it. -/
theorem guardIsWrittenByRtiAlone : Obligations.GuardIsWrittenByRtiAlone := by
  intro i s t h
  split
  · subst i
    exact (exec_rti_clears h).1
  · exact (exec_keeps_guard_and_break (by assumption) h).1

/-- Settles O12: RTI clears B; no other effect names it. -/
theorem breakIsWrittenByRtiAlone : Obligations.BreakIsWrittenByRtiAlone := by
  intro i s t h
  split
  · subst i
    exact (exec_rti_clears h).2
  · exact (exec_keeps_guard_and_break (by assumption) h).2

/-- Settles O15: per effect, a mnemonic it belongs to is among the writers of every register the effect names. -/
theorem registersAreWrittenOnlyByTheirWriters : Obligations.RegistersAreWrittenOnlyByTheirWriters := by
  intro i s t h
  have e := exec_effect h
  clear h
  generalize i.mnemonic = n, i.mode = m at e
  cases e
  all_goals
    rename_i hn
    fin_cases hn <;> simp_all [State.afterTrap_state]

/-- Settles O16: per effect, a mnemonic it belongs to is among the writers of every flag the effect names. -/
theorem flagsAreWrittenOnlyByTheirWriters : Obligations.FlagsAreWrittenOnlyByTheirWriters := by
  intro i s t h
  have e := exec_effect h
  clear h
  generalize i.mnemonic = n, i.mode = m at e
  cases e
  all_goals
    rename_i hn
    fin_cases hn <;> simp_all [State.afterTrap_state]

/-- Settles O5: `Step` fetches exactly these bytes (`State.fetchInstr_of_decode`); what then happens is the definition of
the step, outcome by outcome. -/
theorem stepRunsDecodedInstruction : Obligations.StepRunsDecodedInstruction := by
  intro s n i hdec
  have hfetch := State.fetchInstr_of_decode hdec
  cases hexec : exec i (s.fetchBytes n).2 with
  | next t => exact step_of_cpuStep_next (cpuStep_of_exec_next hfetch hexec)
  | fault f => exact step_of_exec_fault hfetch hexec
  | refused r => simp only [step, hostTurn, cpuStep, hfetch, hexec]

/-- Settles O9: the decoder does not raise it (`State.fetchInstr_ne_unsupportedMode`), and an instruction's faults are others
(`exec_fault`). -/
theorem unsupportedModeIsUnreachable : Obligations.UnsupportedModeIsUnreachable := by
  intro s t op m h
  simp only [step, hostTurn, cpuStep] at h
  cases hfetch : s.fetchInstr.1 with
  | instr i rest =>
    cases hexec : exec i s.fetchInstr.2 with
    | fault f =>
      simp only [hfetch, hexec] at h
      cases h
      rcases exec_fault hexec with hf | hf <;> cases hf
    | next u => simp only [hfetch, hexec] at h; cases h
    | refused r => simp only [hfetch, hexec] at h; cases h
  | unsupportedMode op' m' => exact absurd hfetch (s.fetchInstr_ne_unsupportedMode op' m')
  | unknownOpcode op' => simp only [hfetch] at h; cases h
  | truncated => simp only [hfetch] at h; cases h

/-- Settles O13: the Step counts the one instruction it ran, and the boundary counts nothing (`step_icount_params`). -/
theorem stepCountsOneInstruction : Obligations.StepCountsOneInstruction := fun _ _ h => (step_icount_params h).1

/-- Settles O17: a step only reads and writes through the bus (`step_keeps`), and no part of it writes the parameters. -/
theorem stepKeepsDevicesAndParameters : Obligations.StepKeepsDevicesAndParameters := fun _ _ h =>
  ⟨(step_keeps h).units, (step_icount_params h).2⟩

/-- Settles O18: memory stays canonical because every access keeps it so (`step_keeps`), B stays clear
(`step_keeps_break_clear`), and the parameters do not change. -/
theorem everyStepKeepsTheInvariant : Obligations.EveryStepKeepsTheInvariant := by
  rintro s t ⟨hwf, hbreak, hparams⟩ h
  exact ⟨(step_keeps h).wf hwf, step_keeps_break_clear h hbreak, (step_icount_params h).2 ▸ hparams⟩

/-- Settles O19: the memory of the reset state is canonical (`State.reset_wf`); its B and `TRAP_OPCODE` are literals. -/
theorem resetStateMeetsTheInvariant : Obligations.ResetStateMeetsTheInvariant := ⟨State.reset_wf, rfl, rfl⟩

/-- Settles O60: the host loop looks at the stop addresses first, whatever is left to run, and else makes one step. -/
theorem runEndsAtStopAddresses : Obligations.RunEndsAtStopAddresses := by
  intro n s
  have hstop : s.atStop = true ↔ s.pc ∈ s.params.stopPcs := List.contains_iff_mem
  rw [← hstop]
  refine ⟨fun h => ?ends, fun h f hf => ?faults, fun h t ht => ?goesOn⟩
  case ends => cases n <;> rw [hostLoop, if_pos h]
  case faults => rw [hostLoop, if_neg h, hf]
  case goesOn => rw [hostLoop, if_neg h, ht]

end Sys2Proof.Proofs
end

section
/-! PROOF. Operands (R85-R94), and reading back what was written where memory answers (R48, R63): words, stored bytes, the
stack, the interrupt frame and the reset vector. -/

namespace Sys2Proof.Machine

open Sys2Proof.Said

/-! ### Addresses in numbers -/

theorem zext_eq_ofNat (v : Byte) : zext v = BitVec.ofNat 16 v.toNat := by
  apply BitVec.eq_of_toNat_eq
  simp [zext]

/-- An index is added to a zero-page address modulo 256 (R89, R90, R93). -/
theorem zext_add_eq_ofNat (v k : Byte) : zext (v + k) = BitVec.ofNat 16 ((v.toNat + k.toNat) % 256) := by
  rw [zext_eq_ofNat, BitVec.toNat_add]

/-- An index is added to a 16-bit address modulo 65536 (R91, R94). -/
theorem add_zext_eq_ofNat (w : Addr) (k : Byte) : w + zext k = BitVec.ofNat 16 ((w.toNat + k.toNat) % 65536) := by
  apply BitVec.eq_of_toNat_eq
  simp [zext_eq_ofNat]

theorem effectiveAddr_indX (z : Byte) (s : State) : effectiveAddr (.indX z) s = s.readWord (zext (z + s.x)) := rfl

theorem effectiveAddr_indY (z : Byte) (s : State) :
    effectiveAddr (.indY z) s = ((s.readWord (zext z)).1 + zext s.y, (s.readWord (zext z)).2) := rfl

/-- The operand of a memory form is one read of its effective address, after the pointer reads (R85). -/
theorem operand_mem (m : MemForm) (s : State) :
    let ea := effectiveAddr m s
    let r := ea.2.bus.read ea.1
    operand (.mem m) s = (r.1, { s with bus := r.2 }) := Prod.ext rfl (operand_state (.mem m) s)

/-! ### Bytes written are the bytes read -/

theorem Bus.ramAt.write {b : Bus} {a : Addr} (h : b.ramAt a) (k : Addr) (v : Byte) : (b.write k v).ramAt a :=
  (b.write_keeps k v).ramAt h

theorem Bus.write_wf {b : Bus} (h : b.wf = true) (k : Addr) (v : Byte) : (b.write k v).wf = true := (b.write_keeps k v).wf h

/-- Of two bytes written at two addresses where RAM answers, each is what its address reads as. -/
theorem Bus.peek_write_write {b : Bus} {a k : Addr} (u v : Byte) (hw : b.wf = true) (ha : b.ramAt a) (hk : b.ramAt k)
    (hne : a ≠ k) : ((b.write a u).write k v).peek a = some u ∧ ((b.write a u).write k v).peek k = some v :=
  ⟨(Bus.peek_write_other v hne).trans (Bus.peek_write_same u hw ha),
    Bus.peek_write_same v (Bus.write_wf hw a u) (hk.write a u)⟩

theorem ne_add_one (a : Addr) : a ≠ a + 1 := by bv_omega

theorem stackByte_inj {p q : Byte} (h : stackByte p = stackByte q) : p = q := by
  have hp := p.isLt
  have hq := q.isLt
  have h' := congrArg BitVec.toNat h
  simp only [stackByte, BitVec.toNat_ofNat] at h'
  bv_omega

/-- Successive stack bytes are different ones, also where SP wraps. -/
theorem stackByte_ne_sub_one (p : Byte) : stackByte p ≠ stackByte (p - 1) := fun h => by
  have := stackByte_inj h
  bv_omega

theorem stackByte_ne_sub_two (p : Byte) : stackByte p ≠ stackByte (p - 2) := fun h => by
  have := stackByte_inj h
  bv_omega

theorem stackByte_sub_one_ne_sub_two (p : Byte) : stackByte (p - 1) ≠ stackByte (p - 2) := fun h => by
  have := stackByte_inj h
  bv_omega

/-! ### What a pull gives -/

/-- A word on the stack that memory holds is what `Pop16` gives, and pulling it changes SP alone (R59). -/
theorem State.pop16_of_peek {s : State} {lo hi : Byte} (hlo : s.bus.peek (stackByte (s.sp + 1)) = some lo)
    (hhi : s.bus.peek (stackByte (s.sp + 2)) = some hi) : s.pop16 = (joinBytes hi lo, { s with sp := s.sp + 2 }) := by
  rw [State.pop16_eq, joinBytes_eq_ofNat]
  simp only [Bus.read_of_peek hlo, Bus.read_of_peek hhi]

/-- `Push16` where RAM answers leaves the word on the stack, low byte below the high byte (R58). -/
theorem State.push16_peek {s : State} (w : Addr) (hw : s.bus.wf = true) (hhi : s.bus.ramAt (stackByte s.sp))
    (hlo : s.bus.ramAt (stackByte (s.sp - 1))) :
    (s.push16 w).bus.peek (stackByte s.sp) = some (highByte w) ∧
      (s.push16 w).bus.peek (stackByte (s.sp - 1)) = some (lowByte w) := by
  rw [State.push16_bus, stackAddr_eq_stackByte, stackAddr_eq_stackByte]
  exact Bus.peek_write_write _ _ hw hhi hlo (stackByte_ne_sub_one s.sp)

/-- Where RAM answers, an interrupt leaves its frame on the stack: PC less the bias, and the status byte below it (R238). -/
theorem State.takeInterrupt_peek {s : State} (hw : s.bus.wf = true) (hhi : s.bus.ramAt (stackByte s.sp))
    (hlo : s.bus.ramAt (stackByte (s.sp - 1))) (hp : s.bus.ramAt (stackByte (s.sp - 2))) :
    s.takeInterrupt.bus.peek (stackByte s.sp) = some (highByte (s.pc - rtiPcBiasValue s.params.rtiPcBias)) ∧
      s.takeInterrupt.bus.peek (stackByte (s.sp - 1)) = some (lowByte (s.pc - rtiPcBiasValue s.params.rtiPcBias)) ∧
      s.takeInterrupt.bus.peek (stackByte (s.sp - 2)) = some s.flags.getByte := by
  have hvector : ∀ a, s.takeInterrupt.bus.peek a = s.framed.peek a := fun a => by
    rw [State.takeInterrupt_bus]
    exact (Bus.readWord_keeps (fun _ => False) _ _ _).peek id
  have hframed : s.framed =
      (s.push16 (s.pc - rtiPcBiasValue s.params.rtiPcBias)).bus.write (stackByte (s.sp - 2)) s.flags.getByte := by
    have hsp : s.sp - 1 - 1 = s.sp - 2 := by bv_omega
    rw [State.framed, hsp, stackAddr_eq_stackByte (s.sp - 2), State.push16_bus]
  obtain ⟨hhigh, hlow⟩ := State.push16_peek (s.pc - rtiPcBiasValue s.params.rtiPcBias) hw hhi hlo
  have hkeeps := s.push16_keeps (s.pc - rtiPcBiasValue s.params.rtiPcBias)
  simp only [hvector, hframed]
  exact ⟨(Bus.peek_write_other _ (stackByte_ne_sub_two s.sp)).trans hhigh,
    (Bus.peek_write_other _ (stackByte_sub_one_ne_sub_two s.sp)).trans hlow,
    Bus.peek_write_same _ (hkeeps.wf hw) (hkeeps.ramAt hp)⟩

/-- RTI from a frame that memory holds restores the flags it holds, B clear, and its PC plus the bias (R196). -/
theorem State.returnFromInterrupt_of_peek {u : State} {p lo hi : Byte} (hp : u.bus.peek (stackByte (u.sp + 1)) = some p)
    (hlo : u.bus.peek (stackByte (u.sp + 2)) = some lo) (hhi : u.bus.peek (stackByte (u.sp + 3)) = some hi) :
    u.returnFromInterrupt.pc = joinBytes hi lo + rtiPcBiasValue u.params.rtiPcBias ∧
      u.returnFromInterrupt.flags = { u.flags.setByte p with b := false } := by
  have h2 : u.sp + 1 + 1 = u.sp + 2 := by bv_omega
  have h3 : u.sp + 1 + 1 + 1 = u.sp + 3 := by bv_omega
  rw [State.returnFromInterrupt_pc, State.returnFromInterrupt_flags, State.pop8_value, h3, h2]
  simp only [stackAddr_eq_stackByte, Bus.read_of_peek hp, Bus.read_of_peek hlo, Bus.read_of_peek hhi, and_self]

/-- Where memory answers at the reset vector, a reset reads PC from it and leaves the bus as it is (R260). -/
theorem State.resetWith_of_peek {s : State} {lo hi : Byte} (r : ResetDraws) (hlo : s.bus.peek 0xFFFC#16 = some lo)
    (hhi : s.bus.peek 0xFFFD#16 = some hi) : s.resetWith r = { s with
      a := r.a, x := r.x, y := r.y, sp := r.sp, pc := joinBytes hi lo
      flags := ⟨r.c, r.z, r.i, r.d, false, r.v, r.n⟩
      inIRQ := false
      icount := 0 } := by
  rw [Proofs.resetSetsTheCoreState r s]
  simp only [Bus.read_of_peek hlo, Bus.read_of_peek hhi, joinBytes_eq_ofNat]

end Sys2Proof.Machine

namespace Sys2Proof.Proofs

open Sys2Proof.Machine Sys2Proof.Said

/-- Settles O21: a reset leaves the bus as it is where memory answers (`State.resetWith_of_peek`), so the second one reads the
same word. -/
theorem resetAgainGivesTheSameEntry : Obligations.ResetAgainGivesTheSameEntry := by
  intro r q s lo hi hlo hhi
  have hagain : (s.resetWith r).resetWith q = s.resetWith q := by
    rw [State.resetWith_of_peek r hlo hhi, State.resetWith_of_peek (s := s) q hlo hhi]
    exact State.resetWith_of_peek q hlo hhi
  rw [hagain, State.resetWith_of_peek r hlo hhi, State.resetWith_of_peek q hlo hhi]
  exact ⟨rfl, rfl, rfl⟩

/-- Settles O25: the word's two bytes go to two addresses, and each is what its address reads as (`Bus.peek_write_write`). -/
theorem wordWrittenIsTheWordRead : Obligations.WordWrittenIsTheWordRead := by
  intro a w s hw ha hk
  obtain ⟨hlow, hhigh⟩ := Bus.peek_write_write (lowByte w) (highByte w) hw ha hk (ne_add_one a)
  refine ⟨?word, ?low, ?high⟩
  case word => rw [State.readWord_of_peek (s := s.writeWord a w) hlow hhigh, joinBytes_high_low]
  case low => rw [← lowByte_eq_ofNat]; exact hlow
  case high => rw [← highByte_eq_ofNat]; exact hhigh

/-- Settles O26: computing the address keeps the bus canonical and RAM where it is, so the byte stored there is the byte a
read there gives, and a fetch is a read. -/
theorem storedByteIsFetched : Obligations.StoredByteIsFetched := by
  intro z lo hi s t e he hw hram h
  rw [exec_codingsSta z lo hi s e he, storeTo_state] at h
  cases h
  have hkeeps := effectiveAddr_keeps (fun _ => False) e.form s
  rw [State.fetch8_value, Bus.read_of_peek (Bus.peek_write_same s.a (hkeeps.wf hw) (hkeeps.ramAt hram))]

/-- Settles O27: each form's address is one sum, modulo 256 in the zero page and modulo 65536 elsewhere, after the word read
of its pointer (`State.readWord_eq`) where it has one. -/
theorem effectiveAddressOfEachForm : Obligations.EffectiveAddressOfEachForm := by
  intro z w s
  refine ⟨?zp, ?zpX, ?zpY, rfl, ?absX, ?absY, ?indX, ?indY, rfl, fun m => operand_mem m s⟩
  case zp => rw [effectiveAddr, zext_eq_ofNat]
  case zpX | zpY => all_goals rw [effectiveAddr, zext_add_eq_ofNat]
  case absX | absY => all_goals rw [effectiveAddr, add_zext_eq_ofNat]
  case indX => rw [effectiveAddr_indX, State.readWord_eq, zext_add_eq_ofNat]
  case indY =>
    rw [effectiveAddr_indY, State.readWord_value, add_zext_eq_ofNat, joinBytes_toNat, State.readWord_eq, zext_eq_ofNat]

/-- Settles O43: PHA leaves A in the stack byte; PLA counts SP back up and reads that byte. -/
theorem pushThenPullRestoresA : Obligations.PushThenPullRestoresA := by
  intro s t u v hw hram hpush hsp hbyte hpull
  cases hpush
  cases hpull
  have hpushed : (s.push8 s.a).bus.peek (stackByte s.sp) = some s.a := by
    rw [State.push8_bus, stackAddr_eq_stackByte]
    exact Bus.peek_write_same s.a hw hram
  have hback : u.sp + 1 = s.sp := by rw [hsp, State.push8_sp]; bv_omega
  refine ⟨?a, hback⟩
  case a => rw [State.setA_a, State.pop8_value, stackAddr_eq_stackByte, hback, Bus.read_of_peek (hbyte.trans hpushed)]

/-- Settles O47: RTS pulls the word JSR pushed (`State.push16_peek`, `State.pop16_of_peek`), PC - 1, and adds 1. -/
theorem jsrThenRtsReturns : Obligations.JsrThenRtsReturns := by
  intro w s t u hw hhi hlo hcall hreturn
  rw [exec_jsr] at hcall
  cases hcall
  rw [exec_rts] at hreturn
  cases hreturn
  obtain ⟨hhigh, hlow⟩ := State.push16_peek (s.pc - 1) hw hhi hlo
  have h1 : s.sp - 1 - 1 + 1 = s.sp - 1 := by bv_omega
  have h2 : s.sp - 1 - 1 + 2 = s.sp := by bv_omega
  rw [State.pop16_of_peek (s := { s.push16 (s.pc - 1) with pc := w }) (lo := lowByte (s.pc - 1)) (hi := highByte (s.pc - 1))
    (by rw [State.push16_sp, h1]; exact hlow) (by rw [State.push16_sp, h2]; exact hhigh), joinBytes_high_low]
  refine ⟨rfl, ?pc, h2⟩
  case pc => bv_omega

/-- Settles O51: the handler leaves the frame the interrupt pushed (`State.takeInterrupt_peek`), and RTI restores from it
(`State.returnFromInterrupt_of_peek`): the bias subtracted is added again, and unpacking the packed flags gives them. -/
theorem rtiResumesAtTheInterruptedBoundary : Obligations.RtiResumesAtTheInterruptedBoundary := by
  intro s u v hw hi hq hb hhi hlo hp hsp hparams hframe hrti
  cases hrti
  rw [State.interrupt_taken hi hq] at hsp hframe
  rw [State.takeInterrupt_sp] at hsp
  obtain ⟨hhigh, hlow, hstatus⟩ := State.takeInterrupt_peek hw hhi hlo hp
  have h1 : u.sp + 1 = s.sp - 2 := by bv_omega
  have h2 : u.sp + 2 = s.sp - 1 := by bv_omega
  have h3 : u.sp + 3 = s.sp := by bv_omega
  obtain ⟨hpc, hflags⟩ := State.returnFromInterrupt_of_peek (u := u) (by rw [h1, hframe _ (by simp)]; exact hstatus)
    (by rw [h2, hframe _ (by simp)]; exact hlow) (by rw [h3, hframe _ (by simp)]; exact hhigh)
  refine ⟨?pc, ?flags, ?sp, State.returnFromInterrupt_inIRQ u⟩
  case pc => rw [hpc, joinBytes_high_low, hparams, BitVec.sub_add_cancel]
  case flags => rw [hflags, Flags.setByte_getByte, ← hb]
  case sp => rw [State.returnFromInterrupt_sp]; bv_omega

end Sys2Proof.Proofs
end

section
/-! PROOF. TRAP (R219, R220): what its callback does, and what it leaves alone. -/

namespace Sys2Proof.Machine

open Sys2Proof.Said

/-- The accesses of a callback reach the bus in order (R220). -/
theorem State.runActions_bus (l : List BusAction) (s : State) : (l.foldl State.runAction s).bus = busAfter l s.bus := by
  induction l generalizing s with
  | nil => rfl
  | cons act l ih => cases act <;> exact ih _

theorem State.trapResponse_of_empty_queue {s : State} (h : s.trapQueue = []) :
    s.trapResponse = .returns (Config.trapReturn (s.a :: s.trapCalls)) := by rw [State.trapResponse, h]

theorem State.trapResponse_of_queue {s : State} {r : TrapCallback} {q : List TrapCallback} (h : s.trapQueue = r :: q) :
    s.trapResponse = r := by rw [State.trapResponse, h]

end Sys2Proof.Machine

namespace Sys2Proof.Proofs

open Sys2Proof.Machine

/-- Settles O49: a callback that returns leaves what `State.afterTrap_state` says, its accesses on the bus in order. -/
theorem trapRunsTheCallback : Obligations.TrapRunsTheCallback := by
  refine ⟨fun k => decode_trap k [], fun s r h => ?returns, fun s h => ⟨_, State.trapResponse_of_empty_queue h⟩,
    fun s r q => State.trapResponse_of_queue, fun s => exec_trap_of_neverReturns⟩
  case returns => rw [exec_trap_of_returns h, State.afterTrap_state, State.runActions_bus]

/-- Settles O57: the callback's accesses write only where it writes (`State.runActions_keeps`). -/
theorem frameOfTrap : Obligations.FrameOfTrap := by
  intro s t r hr h
  rw [exec_trap_of_returns hr] at h
  cases h
  have hkeeps := State.runActions_keeps r.actions s
  rw [State.afterTrap_state]
  refine ⟨fun a ha => ?memory, hkeeps.units, rfl, rfl, rfl, rfl, rfl, rfl⟩
  case memory =>
    have hnot : ¬ ∃ v, BusAction.write a v ∈ r.actions := fun ⟨v, hv⟩ => ha v hv
    exact ⟨hkeeps.peek hnot, fun k => hkeeps.heldBy hnot k⟩

end Sys2Proof.Proofs
end

section
/-! PROOF. The bus device by device (R43-R49, R72). A write and a poll go through the devices in priority order; what each
device does there, under its own number, is said by where it stands in the list. -/

namespace Sys2Proof

/-- An element of a list with those below it is the first element or stands further on. -/
theorem exists_split_cons {α : Type} {P : α → List α → Prop} {d : α} {ds : List α} :
    (∃ before e after, d :: ds = before ++ e :: after ∧ P e after) ↔
      P d ds ∨ ∃ before e after, ds = before ++ e :: after ∧ P e after := by
  constructor
  · rintro ⟨before, e, after, h, hP⟩
    cases before with
    | nil => cases h; exact .inl hP
    | cons b bs => cases h; exact .inr ⟨bs, e, after, rfl, hP⟩
  · rintro (h | ⟨before, e, after, rfl, h⟩)
    · exact ⟨[], d, ds, rfl, h⟩
    · exact ⟨d :: before, e, after, rfl, h⟩

end Sys2Proof

namespace Sys2Proof.Machine

/-! ### Polls -/

/-- A device requests at a poll exactly when it is a peripheral whose answer is yes (R72). -/
theorem Device.poll_eq_true (n : Nat) (calls : List BusCall) (d : Device) :
    (d.poll n calls).1 = true ↔ ∃ p, d.kind = .peripheral p ∧ p.request n calls = true := by
  obtain ⟨base, size, kind⟩ := d
  cases kind <;> simp [Device.poll]

theorem pollDevices_eq_true (calls : List BusCall) (ds : List Device) : (pollDevices calls ds).1 = true ↔
    ∃ before d after, ds = before ++ d :: after ∧
      ∃ p, d.kind = .peripheral p ∧ p.request after.length calls = true := by
  induction ds with
  | nil => simp [pollDevices]
  | cons d ds ih => rw [pollDevices, Bool.or_eq_true, ih, Device.poll_eq_true, exists_split_cons]

/-- RAM and ROM never request, and asking them changes nothing (R48, R49). -/
theorem pollDevices_of_no_peripheral {calls : List BusCall} {ds : List Device}
    (h : ∀ d ∈ ds, ∀ p, d.kind ≠ .peripheral p) : pollDevices calls ds = (false, ds) := by
  induction ds with
  | nil => rfl
  | cons d ds ih =>
    obtain ⟨hd, hds⟩ := List.forall_mem_cons.mp h
    have hpoll : d.poll ds.length calls = (false, d) := by
      unfold Device.poll
      split
      · rfl
      · rfl
      · exact absurd ‹_› (hd _)
    rw [pollDevices, ih hds, hpoll]
    rfl

/-! ### Writes -/

/-- What the peripherals receive of a write, in priority order: those that contain the address one entry each (R45). -/
def received (a : Addr) (v : Byte) : List Device → List BusCall
  | [] => []
  | d :: ds =>
    match d.contains a, d.kind with
    | true, .peripheral _ => ⟨ds.length, .write a v⟩ :: received a v ds
    | _, _ => received a v ds

theorem received_cons_of_peripheral {a : Addr} {v : Byte} {d : Device} {p : Peripheral} (ds : List Device)
    (hc : d.contains a = true) (hp : d.kind = .peripheral p) :
    received a v (d :: ds) = ⟨ds.length, .write a v⟩ :: received a v ds := by
  rw [received, hc, hp]

theorem received_cons_of_other {a : Addr} {v : Byte} {d : Device} (ds : List Device)
    (h : ¬ (d.contains a = true ∧ ∃ p, d.kind = .peripheral p)) : received a v (d :: ds) = received a v ds := by
  rw [received]
  split
  · rename_i p hc hp
    exact absurd ⟨hc, p, hp⟩ h
  · rfl

/-- A write makes an entry in the history for a peripheral that contains the address, and for no other device (R45, R47). -/
theorem writeDevices_calls (a : Addr) (v : Byte) (calls : List BusCall) (ds : List Device) :
    (writeDevices a v calls ds).2 = (received a v ds).reverse ++ calls := by
  induction ds generalizing calls with
  | nil => rfl
  | cons d ds ih =>
    rw [writeDevices, ih]
    by_cases h : d.contains a = true ∧ ∃ p, d.kind = .peripheral p
    · obtain ⟨hc, p, hp⟩ := h
      have hwrite : (d.write ds.length a v calls).2 = ⟨ds.length, .write a v⟩ :: calls := by rw [Device.write, hp]
      rw [received_cons_of_peripheral ds hc hp, if_pos hc, hwrite, List.reverse_cons, List.append_assoc]
      rfl
    · rw [received_cons_of_other ds h]
      congr 1
      split
      · unfold Device.write
        split
        · rfl
        · rfl
        · rfl
        · exact absurd ⟨‹_›, _, ‹_›⟩ h
      · rfl

theorem mem_received {a : Addr} {v : Byte} {e : BusCall} {ds : List Device} : e ∈ received a v ds ↔
    ∃ before d after, ds = before ++ d :: after ∧
      ∃ p, d.contains a = true ∧ d.kind = .peripheral p ∧ e = ⟨after.length, .write a v⟩ := by
  induction ds with
  | nil => simp [received]
  | cons d ds ih =>
    rw [exists_split_cons, ← ih]
    by_cases h : d.contains a = true ∧ ∃ p, d.kind = .peripheral p
    · obtain ⟨hc, p, hp⟩ := h
      simp [received_cons_of_peripheral ds hc hp, hc, hp]
    · rw [received_cons_of_other ds h]
      refine ⟨.inr, fun k => k.resolve_left ?_⟩
      rintro ⟨p, hc, hp, -⟩
      exact h ⟨hc, p, hp⟩

theorem device_lt_of_mem_received {a : Addr} {v : Byte} {e : BusCall} {ds : List Device} (h : e ∈ received a v ds) :
    e.device < ds.length := by
  obtain ⟨before, d, after, rfl, -, -, -, rfl⟩ := mem_received.mp h
  simp only [List.length_append, List.length_cons]
  omega

/-- The entries of a write stand in priority order: device numbers fall (R45, D19). -/
theorem received_pairwise (a : Addr) (v : Byte) (ds : List Device) :
    (received a v ds).Pairwise (fun earlier later => later.device < earlier.device) := by
  induction ds with
  | nil => exact .nil
  | cons d ds ih =>
    by_cases h : d.contains a = true ∧ ∃ p, d.kind = .peripheral p
    · obtain ⟨hc, p, hp⟩ := h
      rw [received_cons_of_peripheral ds hc hp]
      exact .cons (fun e he => device_lt_of_mem_received he) ih
    · rwa [received_cons_of_other ds h]

/-- Where a device stands after a write: as before, but that it took the byte if it contains the address (R45). -/
theorem Bus.write_getElem? {b : Bus} {k : Nat} {d : Device} (a : Addr) (v : Byte) (h : b.devices[k]? = some d) :
    (b.write a v).devices[k]? = some (if d.contains a then (d.write 0 a v []).1 else d) :=
  (writeDevices_getElem? a v b.calls b.devices k).trans (by rw [h]; rfl)

theorem Bus.heldBy_of_getElem? {b : Bus} {k : Nat} {d : Device} (h : b.devices[k]? = some d) (a : Addr) :
    b.heldBy k a = d.held a := by rw [Bus.heldBy, h]; rfl

/-- The byte a device in canonical form holds after a write to an address it contains (R48, R49). -/
theorem Device.held_write {d : Device} (hw : d.wf = true) (n : Nat) (a : Addr) (v : Byte) (calls : List BusCall) :
    (d.write n a v calls).1.held a = match d.kind with
      | .ram _ => some v
      | .rom _ .store => some v
      | .rom m .ignore => some (m.read a.toNat)
      | .peripheral _ => none := by
  obtain ⟨base, size, kind⟩ := d
  cases kind with
  | ram m =>
    simp only [Device.wf, Bool.and_eq_true] at hw
    exact congrArg some (Memory.read_write_same v m hw.1)
  | rom m policy =>
    simp only [Device.wf, Bool.and_eq_true] at hw
    cases policy with
    | store => exact congrArg some (Memory.read_write_same v m hw.1)
    | ignore => rfl
  | peripheral p => rfl

theorem Device.write_of_peripheral {d : Device} {p : Peripheral} (h : d.kind = .peripheral p) (n : Nat) (a : Addr) (v : Byte)
    (calls : List BusCall) : (d.write n a v calls).1 = d := by rw [Device.write, h]

end Sys2Proof.Machine

namespace Sys2Proof.Proofs

open Sys2Proof.Machine

/-- Settles O23: each device takes the write by itself (`Bus.write_getElem?`), and the history gains `received`. -/
theorem writeReachesEveryMatch : Obligations.WriteReachesEveryMatch := by
  intro a v b hw
  refine ⟨fun k d hk => ?device, ⟨received a v b.devices, ?calls, ?order, fun e => ?members⟩, (b.write_keeps a v).units⟩
  case device =>
    have hafter := Bus.write_getElem? a v hk
    have hd : d.wf = true := List.all_eq_true.mp hw d (List.mem_of_getElem? hk)
    refine ⟨fun a' ha' => ?other, fun hc => ?there, fun h => ?untouched⟩
    case other =>
      rw [Bus.heldBy_of_getElem? hafter]
      split
      · rename_i hc
        have hne : a' ≠ a := ha'.elim id fun hout he => by rw [he, hc] at hout; cases hout
        exact (d.write_keeps 0 a v [] hc).held a' hne
      · rfl
    case there =>
      rw [if_pos hc] at hafter
      exact (Bus.heldBy_of_getElem? hafter a).trans (Device.held_write hd 0 a v [])
    case untouched =>
      rw [hafter]
      split
      · rename_i hc
        obtain ⟨p, hp⟩ := h.resolve_left (by rw [hc]; decide)
        rw [Device.write_of_peripheral hp]
      · rfl
  case calls => exact writeDevices_calls a v b.calls b.devices
  case order => exact received_pairwise a v b.devices
  case members =>
    rw [mem_received]
    simp only [exists_and_left]

/-- Settles O52: the poll is the OR over the peripherals (`pollDevices_eq_true`), asks each device once
(`pollDevices_getElem?`) and keeps the bus (`Bus.poll_keeps`). -/
theorem boundaryPollsEveryDevice : Obligations.BoundaryPollsEveryDevice := by
  refine ⟨fun s t => step_of_cpuStep_next, fun s f => step_of_cpuStep_fault, fun b => ?request, fun b h => ?none,
    fun b => ⟨rfl, (b.poll_keeps fun _ => False).units, fun a => ⟨?peek, fun k => ?held⟩, fun k => ?asked⟩⟩
  case request =>
    have h := pollDevices_eq_true b.calls b.devices
    simp only [← exists_and_left] at h
    exact h
  case none => rw [Bus.poll, pollDevices_of_no_peripheral h]
  case peek => exact (b.poll_keeps fun _ => False).peek id
  case held => exact (b.poll_keeps fun _ => False).heldBy id k
  case asked =>
    refine (pollDevices_getElem? b.calls b.devices k).trans (congrArg (fun f => b.devices[k]?.map f) (funext fun d => ?_))
    unfold Device.poll
    cases d.kind <;> rfl

end Sys2Proof.Proofs
end

section
/-! PROOF. The order of accesses (R65, R84, R98). A peripheral that is the whole bus records every read and every write once
(`onlyPeripheral_read`, `onlyPeripheral_write`), so what an instruction does on the bus, said as a sequence of reads and
writes, is what it records. -/

namespace Sys2Proof.Machine

open Sys2Proof.Said

/-! ### What the peripheral records -/

theorem contains_whole_space (kind : DeviceKind) (a : Addr) : (⟨0x0000#16, 65536, kind⟩ : Device).contains a = true := by
  rw [Device.contains_iff]
  exact ⟨Nat.zero_le _, by simpa using a.isLt⟩

theorem onlyPeripheral_read {b : Bus} (h : OnlyPeripheral b) (a : Addr) :
    OnlyPeripheral (b.read a).2 ∧ (b.read a).2.calls = readEntry a b :: b.calls := by
  obtain ⟨devices, calls⟩ := b
  obtain ⟨p, rfl⟩ := h
  have hread := Bus.read_of_first_match (before := []) (by simp) (contains_whole_space (.peripheral p) a) [] calls
  rw [List.nil_append] at hread
  rw [readEntry, hread]
  exact ⟨⟨_, rfl⟩, rfl⟩

theorem onlyPeripheral_write {b : Bus} (h : OnlyPeripheral b) (a : Addr) (v : Byte) :
    OnlyPeripheral (b.write a v) ∧ (b.write a v).calls = ⟨0, .write a v⟩ :: b.calls := by
  obtain ⟨devices, calls⟩ := b
  obtain ⟨p, rfl⟩ := h
  simp only [Bus.write, writeDevices, contains_whole_space, if_true, Device.write]
  exact ⟨⟨p, rfl⟩, rfl⟩

theorem onlyPeripheral_read_read {b : Bus} (h : OnlyPeripheral b) (a k : Addr) :
    OnlyPeripheral ((b.read a).2.read k).2 ∧
      ((b.read a).2.read k).2.calls = readEntry k (b.read a).2 :: readEntry a b :: b.calls := by
  obtain ⟨hread, hcalls⟩ := onlyPeripheral_read h a
  obtain ⟨hread', hcalls'⟩ := onlyPeripheral_read hread k
  exact ⟨hread', hcalls'.trans (congrArg _ hcalls)⟩

/-- A read and then a write of one address: the read-modify-write of R65. -/
theorem onlyPeripheral_read_write_calls {b : Bus} (h : OnlyPeripheral b) (a : Addr) (v : Byte) :
    ((b.read a).2.write a v).calls = ⟨0, .write a v⟩ :: readEntry a b :: b.calls := by
  obtain ⟨hread, hcalls⟩ := onlyPeripheral_read h a
  rw [(onlyPeripheral_write hread a v).2, hcalls]

/-! ### Fetches -/

/-- One more byte fetched is recorded last, which is first in the history. -/
theorem fetchEntries_concat (pc : Addr) (bytes : List Byte) (v : Byte) :
    fetchEntries pc (bytes ++ [v]) = ⟨0, .read (pc + BitVec.ofNat 16 bytes.length) v⟩ :: fetchEntries pc bytes := by
  simp [fetchEntries, List.mapIdx_append]

theorem onlyPeripheral_fetchBytes {s : State} (h : OnlyPeripheral s.bus) (n : Nat) :
    OnlyPeripheral (s.fetchBytes n).2.bus ∧
      (s.fetchBytes n).2.bus.calls = fetchEntries s.pc (s.fetchBytes n).1 ++ s.bus.calls := by
  induction n with
  | zero => exact ⟨h, rfl⟩
  | succ n ih =>
    obtain ⟨hkeep, hcalls⟩ := ih
    have hpc : (s.fetchBytes n).2.pc = s.pc + BitVec.ofNat 16 n := by rw [State.fetchBytes_state]
    obtain ⟨hread, hentry⟩ := onlyPeripheral_read hkeep (s.fetchBytes n).2.pc
    rw [State.fetchBytes_succ, fetchEntries_concat, State.fetchBytes_length, ← hpc]
    exact ⟨hread, hentry.trans (congrArg _ hcalls)⟩

/-- Bytes that memory holds at PC are what is fetched, and fetching them moves PC alone (R84). -/
theorem State.fetchBytes_of_peek {bytes : List Byte} {s : State}
    (h : ∀ (j : Nat) (v : Byte), bytes[j]? = some v → s.bus.peek (s.pc + BitVec.ofNat 16 j) = some v) :
    s.fetchBytes bytes.length = (bytes, { s with pc := s.pc + BitVec.ofNat 16 bytes.length }) := by
  induction bytes generalizing s with
  | nil => simp [State.fetchBytes]
  | cons v vs ih =>
    have hshift : ∀ j, s.pc + 1 + BitVec.ofNat 16 j = s.pc + BitVec.ofNat 16 (j + 1) := fun j => by
      rw [Nat.add_comm, BitVec.ofNat_add, BitVec.add_assoc]
      rfl
    have hfirst : s.bus.peek s.pc = some v := by simpa using h 0 v rfl
    have hfetch : s.fetch8 = (v, { s with pc := s.pc + 1 }) := by
      simp only [State.fetch8, State.readByte, Bus.read_of_peek hfirst]
    have hrest := ih (s := { s with pc := s.pc + 1 }) fun j w hw => by
      rw [hshift]
      exact h (j + 1) w hw
    rw [List.length_cons, State.fetchBytes, hfetch, hrest]
    simp only [hshift]

/-! ### What the instructions do on the bus -/

section
variable (z lo hi : Byte) (s : State)

/-- Every instruction with an operand reads it and does nothing else on the bus. -/
theorem exec_reading : ∀ e ∈ codingsLda z lo hi ++ codingsLdx z lo hi ++ codingsLdy z lo hi ++ codingsAdc z lo hi ++
      codingsSbc z lo hi ++ codingsCmp z lo hi ++ codingsCpx z lo hi ++ codingsCpy z lo hi ++ codingsAnd z lo hi ++
      codingsOra z lo hi ++ codingsEor z lo hi ++ codingsBit z lo hi,
    ∃ use, exec e.instr s = withOperand e.form use s ∧ ∀ (v : Byte) (t : State), (use v t).bus = t.bus := by
  simp only [List.mem_append]
  rintro e (((((((((((he | he) | he) | he) | he) | he) | he) | he) | he) | he) | he) | he)
  · exact ⟨_, exec_codingsLda z lo hi s e he, fun _ _ => rfl⟩
  · exact ⟨_, exec_codingsLdx z lo hi s e he, fun _ _ => rfl⟩
  · exact ⟨_, exec_codingsLdy z lo hi s e he, fun _ _ => rfl⟩
  · exact ⟨_, exec_codingsAdc z lo hi s e he, fun _ _ => rfl⟩
  · exact ⟨_, exec_codingsSbc z lo hi s e he, fun _ _ => rfl⟩
  · exact ⟨_, exec_codingsCmp z lo hi s e he, fun _ _ => rfl⟩
  · exact ⟨_, exec_codingsCpx z lo hi s e he, fun _ _ => rfl⟩
  · exact ⟨_, exec_codingsCpy z lo hi s e he, fun _ _ => rfl⟩
  · exact ⟨_, exec_codingsAnd z lo hi s e he, fun _ _ => rfl⟩
  · exact ⟨_, exec_codingsOra z lo hi s e he, fun _ _ => rfl⟩
  · exact ⟨_, exec_codingsEor z lo hi s e he, fun _ _ => rfl⟩
  · exact ⟨_, exec_codingsBit z lo hi s e he, fun _ _ => rfl⟩

theorem exec_shifting : ∀ e ∈ codingsAsl z lo hi ++ codingsLsr z lo hi ++ codingsRol z lo hi ++ codingsRor z lo hi,
    ∃ op, exec e.instr s = shift e.form op s := by
  simp only [List.mem_append]
  rintro e (((he | he) | he) | he)
  · exact ⟨_, exec_codingsAsl z lo hi s e he⟩
  · exact ⟨_, exec_codingsLsr z lo hi s e he⟩
  · exact ⟨_, exec_codingsRol z lo hi s e he⟩
  · exact ⟨_, exec_codingsRor z lo hi s e he⟩

theorem exec_counting : ∀ e ∈ codingsInc z lo hi ++ codingsDec z lo hi,
    ∃ f : Byte → Byte, exec e.instr s = modifyMem e.form f (fun v => Flags.update (f v)) s := by
  simp only [List.mem_append]
  rintro e (he | he)
  · exact ⟨_, exec_codingsInc z lo hi s e he⟩
  · exact ⟨_, exec_codingsDec z lo hi s e he⟩

end

theorem bus_of_withOperand {f : ReadForm} {use : Byte → State → State} {s t : State} (huse : ∀ v u, (use v u).bus = u.bus)
    (h : withOperand f use s = .next t) : t.bus = (operand f s).2.bus := by
  cases h
  exact huse _ _

theorem bus_of_storeTo {m : MemForm} {v : Byte} {s t : State} (h : storeTo m v s = .next t) :
    t.bus = (effectiveAddr m s).2.bus.write (effectiveAddr m s).1 v := by
  rw [storeTo_state] at h
  cases h
  rfl

theorem bus_of_modifyMem {m : MemForm} {f : Byte → Byte} {flags : Byte → Flags → Flags} {s t : State}
    (h : modifyMem m f flags s = .next t) :
    ∃ r, t.bus = ((effectiveAddr m s).2.bus.read (effectiveAddr m s).1).2.write (effectiveAddr m s).1 r := by
  rw [modifyMem_state] at h
  cases h
  exact ⟨_, rfl⟩

theorem bus_of_branch {cond : Bool} {rel : Byte} {s t : State} (h : branch cond rel s = .next t) : t.bus = s.bus := by
  rw [branch_state] at h
  cases h
  rfl

/-- An implied or relative instruction that is none of the stack's, BRK or TRAP makes no access (R98). -/
theorem bus_of_implied {i : Instr} {s t : State} (hm : i.mode = .IMP ∨ i.mode = .REL)
    (hn : i.mnemonic ∉ [.PHA, .PHP, .PLA, .PLP, .RTS, .RTI, .BRK, .TRAP]) (h : exec i s = .next t) : t.bus = s.bus := by
  cases i
  case pha | php | pla | plp | rts | rti | brk | trap => all_goals exact absurd (List.mem_of_elem_eq_true rfl) hn
  case bcc | bcs | beq | bne | bmi | bpl | bvc | bvs => all_goals exact bus_of_branch h
  case tax | tay | txa | tya | tsx | txs | inx | iny | dex | dey | clc | cld | cli | clv | sec | sed | sei | nop =>
    all_goals
      cases h
      rfl
  all_goals exact absurd hm (by simp [Instr.mode])

/-- After the pointer reads of an address the peripheral still is the whole bus. -/
theorem onlyPeripheral_effectiveAddr {s : State} (h : OnlyPeripheral s.bus) (m : MemForm) :
    OnlyPeripheral (effectiveAddr m s).2.bus := by
  cases m with
  | indX z => exact (onlyPeripheral_read_read h _ _).1
  | indY z => exact (onlyPeripheral_read_read h _ _).1
  | _ => exact h

end Sys2Proof.Machine

namespace Sys2Proof.Proofs

open Sys2Proof.Machine Sys2Proof.Said

/-- Settles O6: where memory answers, `State.fetchBytes_of_peek`; on any bus, byte by byte (`State.fetchBytes_succ`), and a
peripheral that is the whole bus records each byte (`onlyPeripheral_fetchBytes`). -/
theorem fetchReadsBytesAtPc : Obligations.FetchReadsBytesAtPc :=
  ⟨fun _ _ h => State.fetchBytes_of_peek h, fun n s => ⟨State.fetchBytes_length n s, State.fetchBytes_state n s,
    State.fetchBytes_succ n s, fun h => onlyPeripheral_fetchBytes h n⟩⟩

/-- Settles O28: the bus an instruction leaves is a sequence of reads and writes of the bus it found, and each is one entry
of the history. -/
theorem dataAccessesHappenInOrder : Obligations.DataAccessesHappenInOrder := by
  intro z lo hi w s t honly
  have hsecond : s.sp + 1 + 1 = s.sp + 2 := by bv_omega
  have hthird : s.sp + 1 + 1 + 1 = s.sp + 3 := by bv_omega
  refine ⟨fun n i hdec => ?step, fun e he h => ?reading, fun e he h => ?sta, fun e he h => ?stx, fun e he h => ?sty,
    fun e he h => ?counting, fun e he h => ?shifting, fun m => ?pointers, fun h => ?jmpAbs, fun h => ?jmpInd, fun h => ?pha,
    fun h => ?php, fun i hi h => ?pull, fun h => ?jsr, ⟨fun h => ?rts, fun h => ?rti⟩, fun i hm hn h => ?implied⟩
  case step =>
    obtain ⟨hkeep, hcalls⟩ := onlyPeripheral_fetchBytes honly n
    exact ⟨hcalls, hkeep, cpuStep_of_exec_next (State.fetchInstr_of_decode hdec)⟩
  case reading =>
    obtain ⟨use, hexec, huse⟩ := exec_reading z lo hi s e he
    have hbus := bus_of_withOperand huse (hexec.symm.trans h)
    cases hform : e.form with
    | imm v => rw [hbus, hform]; rfl
    | mem m =>
      rw [hbus, hform, operand_mem]
      exact (onlyPeripheral_read (onlyPeripheral_effectiveAddr honly m) _).2
  case sta =>
    rw [bus_of_storeTo ((exec_codingsSta z lo hi s e he).symm.trans h)]
    exact (onlyPeripheral_write (onlyPeripheral_effectiveAddr honly e.form) _ _).2
  case stx =>
    rw [bus_of_storeTo ((exec_codingsStx z lo hi s e he).symm.trans h)]
    exact (onlyPeripheral_write (onlyPeripheral_effectiveAddr honly e.form) _ _).2
  case sty =>
    rw [bus_of_storeTo ((exec_codingsSty z lo hi s e he).symm.trans h)]
    exact (onlyPeripheral_write (onlyPeripheral_effectiveAddr honly e.form) _ _).2
  case counting =>
    obtain ⟨f, hexec⟩ := exec_counting z lo hi s e he
    obtain ⟨r, hbus⟩ := bus_of_modifyMem (hexec.symm.trans h)
    exact ⟨r, hbus ▸ onlyPeripheral_read_write_calls (onlyPeripheral_effectiveAddr honly e.form) _ r⟩
  case shifting =>
    obtain ⟨op, hexec⟩ := exec_shifting z lo hi s e he
    rw [hexec] at h
    cases hform : e.form with
    | acc => rw [hform] at h; cases h; rfl
    | mem m =>
      rw [hform, shift] at h
      obtain ⟨r, hbus⟩ := bus_of_modifyMem h
      exact ⟨r, hbus ▸ onlyPeripheral_read_write_calls (onlyPeripheral_effectiveAddr honly m) _ r⟩
  case pointers =>
    cases m with
    | indX b => exact (onlyPeripheral_read_read honly _ _).2
    | indY b => exact (onlyPeripheral_read_read honly _ _).2
    | _ => rfl
  case jmpAbs => cases h; rfl
  case jmpInd => cases h; exact (onlyPeripheral_read_read honly _ _).2
  case pha =>
    cases h
    rw [← stackAddr_eq_stackByte]
    exact (onlyPeripheral_write honly _ _).2
  case php =>
    cases h
    rw [← stackAddr_eq_stackByte]
    exact (onlyPeripheral_write honly _ _).2
  case pull =>
    rw [← stackAddr_eq_stackByte]
    rcases List.mem_pair.mp hi with rfl | rfl <;> cases h <;> exact (onlyPeripheral_read honly _).2
  case jsr =>
    cases h
    rw [State.push16_bus, ← stackAddr_eq_stackByte, ← stackAddr_eq_stackByte]
    obtain ⟨hkeep, hcalls⟩ := onlyPeripheral_write honly (stackAddr s.sp) (highByte (s.pc - 1))
    exact (onlyPeripheral_write hkeep _ _).2.trans (congrArg _ hcalls)
  case rts =>
    cases h
    rw [State.pop16_bus, hsecond, stackAddr_eq_stackByte, stackAddr_eq_stackByte]
    exact (onlyPeripheral_read_read honly _ _).2
  case rti =>
    cases h
    rw [State.returnFromInterrupt_bus, hthird, hsecond]
    simp only [stackAddr_eq_stackByte]
    obtain ⟨hkeep, hcalls⟩ := onlyPeripheral_read_read honly (stackByte (s.sp + 1)) (stackByte (s.sp + 2))
    exact (onlyPeripheral_read hkeep _).2.trans (congrArg _ hcalls)
  case implied => rw [bus_of_implied hm hn h]

end Sys2Proof.Proofs
end

section
/-! PROOF. What instructions leave unchanged (R120-R217), and that ADC and SBC do not read D (R32). A frame has two parts: on
the bus, that all accesses are reads, or writes at known addresses (`Bus.Keeps`); in the rest of the state, an equation that
names every field that may differ. -/

namespace Sys2Proof.Machine

open Sys2Proof.Said

/-! ### From the bus to a frame -/

theorem memoryKeptOutside_of_keeps {L : List Addr} {s t : State} (h : Bus.Keeps (· ∈ L) s.bus t.bus) :
    MemoryKeptOutside L s t := fun _ ha => ⟨h.peek ha, fun k => h.heldBy ha k⟩

/-- What every instruction that reads an operand leaves alone. -/
def ReadingKeeps (s t : State) : Prop :=
  MemoryKeptOutside [] s t ∧ SystemKept s t ∧ t.sp = s.sp ∧ t.pc = s.pc ∧ t.flags.i = s.flags.i ∧
    t.flags.d = s.flags.d ∧ t.flags.b = s.flags.b

/-- What every instruction that writes one byte of memory leaves alone. -/
def WritingKeeps (a : Addr) (s t : State) : Prop := MemoryKeptOutside [a] s t ∧ SystemKept s t ∧ RegistersKept s t

section
variable {s : State} {bus : Bus}

theorem readingKeeps_of_bus (h : Bus.Keeps (· ∈ []) s.bus bus) (a x y : Byte) (c z v n : Bool) :
    ReadingKeeps s { s with
      bus := bus, a := a, x := x, y := y, flags := { s.flags with c := c, z := z, v := v, n := n } } :=
  ⟨memoryKeptOutside_of_keeps h, ⟨rfl, rfl, rfl, rfl, rfl, h.units⟩, rfl, rfl, rfl, rfl, rfl⟩

theorem writingKeeps_of_bus {a : Addr} (h : Bus.Keeps (· ∈ [a]) s.bus bus) (flags : Flags) :
    WritingKeeps a s { s with bus := bus, flags := flags } :=
  ⟨memoryKeptOutside_of_keeps h, ⟨rfl, rfl, rfl, rfl, rfl, h.units⟩, rfl, rfl, rfl, rfl, rfl⟩

/-- An instruction that changes no more than SP, PC, A, the flags and the bus keeps the system. -/
theorem systemKept_of_bus {L : Addr → Prop} (h : Bus.Keeps L s.bus bus) (a sp : Byte) (pc : Addr) (flags : Flags) :
    SystemKept s { s with bus := bus, a := a, sp := sp, pc := pc, flags := flags } :=
  ⟨rfl, rfl, rfl, rfl, rfl, h.units⟩

end

/-- On the bus a store is the pointer reads and one write of the target. -/
theorem store_keeps (m : MemForm) (v : Byte) (s : State) :
    Bus.Keeps (· ∈ [(effectiveAddr m s).1]) s.bus ((effectiveAddr m s).2.bus.write (effectiveAddr m s).1 v) :=
  (effectiveAddr_keeps _ m s).trans ((Bus.write_keeps _ v _).mono fun _ => List.mem_singleton.mpr)

/-- On the bus a read-modify-write is the pointer reads, one read and one write of the target. -/
theorem modify_keeps (m : MemForm) (v : Byte) (s : State) : Bus.Keeps (· ∈ [(effectiveAddr m s).1]) s.bus
    (((effectiveAddr m s).2.bus.read (effectiveAddr m s).1).2.write (effectiveAddr m s).1 v) :=
  (effectiveAddr_keeps _ m s).trans
    ((Bus.read_keeps _ _ _).trans ((Bus.write_keeps _ v _).mono fun _ => List.mem_singleton.mpr))

/-- What is done with an operand is done in the state before it was read, but for the bus. -/
theorem withOperand_eq (f : ReadForm) (use : Byte → State → State) (s : State) :
    withOperand f use s = .next (use (operand f s).1 { s with bus := (operand f s).2.bus }) := by
  rw [withOperand, ← operand_state]

/-- A branch can change PC alone. -/
theorem eq_of_branch {cond : Bool} {rel : Byte} {s t : State} (h : branch cond rel s = .next t) :
    t = { s with pc := t.pc } := by
  rw [branch_state] at h
  cases h
  rfl

/-! ### The families of instructions, by what they assign -/

section
variable (z lo hi : Byte) (s : State)

theorem exec_assigningA : ∀ e ∈ codingsLda z lo hi ++ codingsAnd z lo hi ++ codingsOra z lo hi ++ codingsEor z lo hi,
    ∃ r, exec e.instr s = .next (State.setA r { s with bus := (operand e.form s).2.bus }) := by
  simp only [List.mem_append]
  rintro e (((he | he) | he) | he)
  · exact ⟨_, (exec_codingsLda z lo hi s e he).trans (withOperand_eq _ _ s)⟩
  · exact ⟨_, (exec_codingsAnd z lo hi s e he).trans (withOperand_eq _ _ s)⟩
  · exact ⟨_, (exec_codingsOra z lo hi s e he).trans (withOperand_eq _ _ s)⟩
  · exact ⟨_, (exec_codingsEor z lo hi s e he).trans (withOperand_eq _ _ s)⟩

theorem exec_arithmetic : ∀ e ∈ codingsAdc z lo hi ++ codingsSbc z lo hi, ∃ r c zero v n, exec e.instr s = .next { s with
    bus := (operand e.form s).2.bus, a := r, flags := { s.flags with c := c, z := zero, v := v, n := n } } := by
  simp only [List.mem_append]
  rintro e (he | he)
  · exact ⟨_, _, _, _, _, (exec_codingsAdc z lo hi s e he).trans (withOperand_eq _ _ s)⟩
  · exact ⟨_, _, _, _, _, (exec_codingsSbc z lo hi s e he).trans (withOperand_eq _ _ s)⟩

theorem exec_comparing : ∀ e ∈ codingsCmp z lo hi ++ codingsCpx z lo hi ++ codingsCpy z lo hi, ∃ c zero n,
    exec e.instr s = .next { s with
      bus := (operand e.form s).2.bus, flags := { s.flags with c := c, z := zero, n := n } } := by
  simp only [List.mem_append]
  rintro e ((he | he) | he)
  · exact ⟨_, _, _, (exec_codingsCmp z lo hi s e he).trans (withOperand_eq _ _ s)⟩
  · exact ⟨_, _, _, (exec_codingsCpx z lo hi s e he).trans (withOperand_eq _ _ s)⟩
  · exact ⟨_, _, _, (exec_codingsCpy z lo hi s e he).trans (withOperand_eq _ _ s)⟩

theorem exec_storing : ∀ e ∈ codingsSta z lo hi ++ codingsStx z lo hi ++ codingsSty z lo hi,
    ∃ v, exec e.instr s = storeTo e.form v s := by
  simp only [List.mem_append]
  rintro e ((he | he) | he)
  · exact ⟨_, exec_codingsSta z lo hi s e he⟩
  · exact ⟨_, exec_codingsStx z lo hi s e he⟩
  · exact ⟨_, exec_codingsSty z lo hi s e he⟩

end

/-! ### The Decimal flag -/

/-- Reading an operand does not look at the flags. -/
theorem operand_withFlags (f : ReadForm) (s : State) (g : Flags) :
    operand f { s with flags := g } = ((operand f s).1, { (operand f s).2 with flags := g }) := by
  rcases f with v | m
  · rfl
  · cases m <;> rfl

/-- Addition reads of the flags only Carry, and leaves D as it is (R151, D14). -/
theorem addA_withDecimal {f : ReadForm} {s t : State} (h : addA f s = .next t) (d : Bool) :
    addA f { s with flags := { s.flags with d := d } } = .next { t with flags := { t.flags with d := d } } := by
  rw [addA, withOperand_eq] at h ⊢
  cases h
  rw [operand_withFlags]
  rfl

theorem subtractA_withDecimal {f : ReadForm} {s t : State} (h : subtractA f s = .next t) (d : Bool) :
    subtractA f { s with flags := { s.flags with d := d } } = .next { t with flags := { t.flags with d := d } } := by
  rw [subtractA, withOperand_eq] at h ⊢
  cases h
  rw [operand_withFlags]
  rfl

end Sys2Proof.Machine

namespace Sys2Proof.Proofs

open Sys2Proof.Machine Sys2Proof.Said

/-- Settles O14: neither reading the operand (`operand_withFlags`) nor the addition or subtraction looks at D. -/
theorem decimalFlagDoesNotChangeArithmetic : Obligations.DecimalFlagDoesNotChangeArithmetic := by
  intro z lo hi s t d e he h
  rcases List.mem_append.mp he with hadc | hsbc
  · rw [exec_codingsAdc z lo hi _ e hadc] at h ⊢
    exact addA_withDecimal h d
  · rw [exec_codingsSbc z lo hi _ e hsbc] at h ⊢
    exact subtractA_withDecimal h d

/-- Settles O53: reading the operand makes only reads (`operand_keeps`), and each family assigns only what its equation names
(`readingKeeps_of_bus`). -/
theorem frameOfReadingInstructions : Obligations.FrameOfReadingInstructions := by
  intro z lo hi s t kept
  refine ⟨fun e he h => ?assigningA, fun e he h => ?ldx, fun e he h => ?ldy, fun e he h => ?arithmetic,
    fun e he h => ?comparing, fun e he h => ?bit⟩
  case assigningA =>
    obtain ⟨r, hexec⟩ := exec_assigningA z lo hi s e he
    cases hexec.symm.trans h
    exact ⟨readingKeeps_of_bus (operand_keeps _ _ s) _ _ _ _ _ _ _, rfl, rfl, rfl, rfl⟩
  case ldx =>
    cases ((exec_codingsLdx z lo hi s e he).trans (withOperand_eq _ _ s)).symm.trans h
    exact ⟨readingKeeps_of_bus (operand_keeps _ _ s) _ _ _ _ _ _ _, rfl, rfl, rfl, rfl⟩
  case ldy =>
    cases ((exec_codingsLdy z lo hi s e he).trans (withOperand_eq _ _ s)).symm.trans h
    exact ⟨readingKeeps_of_bus (operand_keeps _ _ s) _ _ _ _ _ _ _, rfl, rfl, rfl, rfl⟩
  case arithmetic =>
    obtain ⟨r, c, zero, v, n, hexec⟩ := exec_arithmetic z lo hi s e he
    cases hexec.symm.trans h
    exact ⟨readingKeeps_of_bus (operand_keeps _ _ s) _ _ _ _ _ _ _, rfl, rfl⟩
  case comparing =>
    obtain ⟨c, zero, n, hexec⟩ := exec_comparing z lo hi s e he
    cases hexec.symm.trans h
    exact ⟨readingKeeps_of_bus (operand_keeps _ _ s) _ _ _ _ _ _ _, ⟨rfl, rfl, rfl, rfl, rfl⟩, rfl⟩
  case bit =>
    cases ((exec_codingsBit z lo hi s e he).trans (withOperand_eq _ _ s)).symm.trans h
    exact ⟨readingKeeps_of_bus (operand_keeps _ _ s) _ _ _ _ _ _ _, ⟨rfl, rfl, rfl, rfl, rfl⟩, rfl⟩

/-- Settles O54: a store (`store_keeps`) or a read-modify-write (`modify_keeps`) writes its effective address alone, and
assigns the flags alone. -/
theorem frameOfStoringInstructions : Obligations.FrameOfStoringInstructions := by
  intro z lo hi s t kept
  refine ⟨fun e he h => ?storing, fun e he h => ?counting, fun e he h => ?shifting⟩
  case storing =>
    obtain ⟨v, hexec⟩ := exec_storing z lo hi s e he
    rw [hexec, storeTo_state] at h
    cases h
    exact ⟨writingKeeps_of_bus (store_keeps e.form v s) s.flags, rfl⟩
  case counting =>
    obtain ⟨f, hexec⟩ := exec_counting z lo hi s e he
    rw [hexec, modifyMem_state] at h
    cases h
    exact ⟨writingKeeps_of_bus (modify_keeps e.form _ s) _, rfl⟩
  case shifting =>
    obtain ⟨op, hexec⟩ := exec_shifting z lo hi s e he
    rw [hexec] at h
    cases hform : e.form with
    | acc =>
      rw [hform, shift] at h
      cases h
      exact ⟨rfl, memoryKeptOutside_of_keeps (.refl _ _), systemKept_of_bus (.refl (· ∈ []) _) _ _ _ _, rfl⟩
    | mem m =>
      rw [hform, shift, modifyMem_state] at h
      cases h
      exact ⟨rfl, writingKeeps_of_bus (modify_keeps m _ s) _⟩

/-- Settles O55: pushes write the bytes `State.push8_keeps` and `State.push16_keeps` name, pulls only read; the rest is the
equation each instruction is. -/
theorem frameOfStackInstructions : Obligations.FrameOfStackInstructions := by
  intro w s t
  refine ⟨fun i hi h => ?push, fun h => ?pla, fun h => ?plp, fun h => ?jsr, fun h => ?rts, fun h => ?rti⟩
  case push =>
    have hkeeps : ∀ v, Bus.Keeps (· ∈ [stackByte s.sp]) s.bus (s.push8 v).bus := fun v =>
      (s.push8_keeps v).mono fun a ha => List.mem_singleton.mpr (ha.trans (stackAddr_eq_stackByte s.sp))
    rcases List.mem_pair.mp hi with rfl | rfl
    · cases h
      exact ⟨memoryKeptOutside_of_keeps (hkeeps _), systemKept_of_bus (hkeeps _) _ _ _ _, rfl⟩
    · cases h
      exact ⟨memoryKeptOutside_of_keeps (hkeeps _), systemKept_of_bus (hkeeps _) _ _ _ _, rfl⟩
  case pla =>
    cases h
    exact ⟨memoryKeptOutside_of_keeps (s.pop8_keeps _), systemKept_of_bus (s.pop8_keeps (· ∈ [])) _ _ _ _, rfl⟩
  case plp =>
    cases h
    exact ⟨memoryKeptOutside_of_keeps (s.pop8_keeps _), systemKept_of_bus (s.pop8_keeps (· ∈ [])) _ _ _ _, rfl, rfl⟩
  case jsr =>
    have hkeeps := s.push16_keeps (s.pc - 1)
    rw [stackAddr_eq_stackByte, stackAddr_eq_stackByte] at hkeeps
    cases h
    exact ⟨memoryKeptOutside_of_keeps hkeeps, systemKept_of_bus hkeeps _ _ _ _, rfl⟩
  case rts =>
    cases h
    exact ⟨memoryKeptOutside_of_keeps (s.pop16_keeps _), systemKept_of_bus (s.pop16_keeps (· ∈ [])) _ _ _ _, rfl⟩
  case rti =>
    cases h
    have hkeeps := s.returnFromInterrupt_keeps (· ∈ [])
    exact ⟨memoryKeptOutside_of_keeps hkeeps, hkeeps.units, rfl⟩

/-- Settles O56: each is one assignment, which its equation names; JMP indirect also reads its pointer. -/
theorem frameOfRegisterInstructions : Obligations.FrameOfRegisterInstructions := by
  intro r w s t zn
  refine ⟨fun i hi h => ?x, fun i hi h => ?y, fun i hi h => ?a, fun h => ?txs, fun i hi h => ?pc, fun h => ?jmpInd,
    fun i hi h => ?c, fun i hi h => ?d, fun i hi h => ?i, fun h => ?clv, fun h => ?nop⟩
  case jmpInd =>
    cases h
    exact ⟨memoryKeptOutside_of_keeps (s.readWord_keeps _ w), systemKept_of_bus (s.readWord_keeps (· ∈ []) w) _ _ _ _, rfl⟩
  case pc =>
    fin_cases hi
    on_goal 9 => cases h; rfl
    all_goals exact eq_of_branch h
  case txs | clv | nop =>
    all_goals
      cases h
      rfl
  case x | y | a | c | d | i =>
    all_goals fin_cases hi <;> cases h <;> rfl

end Sys2Proof.Proofs
end

section
/-! PROOF. Boot and vector patches (R264-R266). Boot is a sequence of steps that each keep what the invariant says: the devices
are mapped, the patches and the reset only read and write through the bus. A patched byte is what reads give afterwards
because the later bytes of the patch go elsewhere. -/

namespace Sys2Proof.Machine

/-! ### Patches -/

/-- Reads of an address are answered by a RAM or a ROM. -/
def Bus.memoryAt (b : Bus) (a : Addr) : Prop := ∃ d, b.answering a = some d ∧ ∀ p, d.kind ≠ .peripheral p

theorem Device.Keeps.not_peripheral {L : Addr → Prop} {d e : Device} (h : Device.Keeps L d e)
    (hd : ∀ p, d.kind ≠ .peripheral p) (p : Peripheral) : e.kind ≠ .peripheral p := by
  obtain ⟨base, size, kind⟩ := d
  have hunit := congrArg (fun u => u.2.2) h.unit
  intro hp
  simp only [Device.unit, hp] at hunit
  cases kind with
  | ram m => cases hunit
  | rom m policy => cases hunit
  | peripheral q => exact hd q rfl

theorem Bus.Keeps.memoryAt {L : Addr → Prop} {b c : Bus} (h : Bus.Keeps L b c) {a : Addr} (ha : b.memoryAt a) :
    c.memoryAt a := by
  obtain ⟨d, hd, hmemory⟩ := ha
  have hrel := h.answering a
  rw [hd] at hrel
  cases hc : c.answering a with
  | none => rw [hc] at hrel; cases hrel
  | some e =>
    rw [hc] at hrel
    cases hrel with
    | some k => exact ⟨e, hc, k.not_peripheral hmemory⟩

/-- A RAM or a ROM in canonical form holds a byte patched into it, whatever its write policy (R266, D32). -/
theorem Device.held_patch {d : Device} (hw : d.wf = true) (hd : ∀ p, d.kind ≠ .peripheral p) (n : Nat) (a : Addr) (v : Byte)
    (calls : List BusCall) : (d.patch n a v calls).1.held a = some v := by
  obtain ⟨base, size, kind⟩ := d
  cases kind with
  | ram m =>
    simp only [Device.wf, Bool.and_eq_true] at hw
    exact congrArg some (Memory.read_write_same v m hw.1)
  | rom m policy =>
    simp only [Device.wf, Bool.and_eq_true] at hw
    exact congrArg some (Memory.read_write_same v m hw.1)
  | peripheral p => exact absurd rfl (hd p)

/-- The device that answers reads of a patched address is the one that answered before, patched. -/
theorem patchDevices_find {a : Addr} (v : Byte) {d : Device} {ds : List Device} (calls : List BusCall)
    (h : ds.find? (fun d => d.contains a) = some d) :
    ∃ n k, (patchDevices a v calls ds).1.find? (fun d => d.contains a) = some (d.patch n a v k).1 := by
  induction ds generalizing calls with
  | nil => cases h
  | cons e ds ih =>
    rw [List.find?_cons] at h
    cases hc : e.contains a with
    | false =>
      rw [hc] at h
      obtain ⟨n, k, hfind⟩ := ih calls h
      exact ⟨n, k, by simp [patchDevices, hc, hfind]⟩
    | true =>
      rw [hc] at h
      cases h
      have hpatched := Device.contains_unit (d.patch_keeps ds.length a v calls hc).unit a
      exact ⟨ds.length, calls, by simp [patchDevices, hc, hpatched]⟩

/-- One byte of a patch, on the bus. -/
def Bus.patch (a : Addr) (v : Byte) (b : Bus) : Bus :=
  ⟨(patchDevices a v b.calls b.devices).1, (patchDevices a v b.calls b.devices).2⟩

theorem patchBytes_cons (a : Addr) (v : Byte) (vs : List Byte) (b : Bus) :
    patchBytes a (v :: vs) b = patchBytes (a + 1) vs (b.patch a v) := rfl

theorem Bus.patch_keeps (a : Addr) (v : Byte) (b : Bus) : Bus.Keeps (· = a) b (b.patch a v) :=
  patchDevices_keeps a v b.calls b.devices

theorem Bus.peek_patch {b : Bus} {a : Addr} (v : Byte) (hw : b.wf = true) (ha : b.memoryAt a) :
    (b.patch a v).peek a = some v := by
  obtain ⟨d, hd, hmemory⟩ := ha
  obtain ⟨n, k, hfind⟩ := patchDevices_find v b.calls hd
  have hanswer : (b.patch a v).answering a = some (d.patch n a v k).1 := hfind
  rw [Bus.peek, hanswer]
  exact Device.held_patch (List.all_eq_true.mp hw d (mem_of_answering hd)) hmemory n a v k

/-- Addresses less than a whole turn of the address space further on are others. -/
theorem ne_add_one_add_ofNat (a : Addr) {j : Nat} (h : j + 1 < 65536) : a ≠ a + 1 + BitVec.ofNat 16 j := by
  intro he
  have he' := congrArg BitVec.toNat he
  have ha := a.isLt
  have hone : (1 : Addr).toNat = 1 := rfl
  simp only [BitVec.toNat_add, BitVec.toNat_ofNat, hone] at he'
  omega

/-- Each byte of a patch is what reads of its address give afterwards, where memory answers there. -/
theorem peek_patchBytes {bytes : List Byte} {t : Addr} {b : Bus} (hw : b.wf = true) (hlength : bytes.length ≤ 65536) {j : Nat}
    {v : Byte} (hj : bytes[j]? = some v) (hmemory : b.memoryAt (t + BitVec.ofNat 16 j)) :
    (patchBytes t bytes b).peek (t + BitVec.ofNat 16 j) = some v := by
  induction bytes generalizing t b j with
  | nil => cases hj
  | cons w ws ih =>
    rw [List.length_cons] at hlength
    rw [patchBytes_cons]
    cases j with
    | zero =>
      cases hj
      have hzero : t + BitVec.ofNat 16 0 = t := BitVec.add_zero t
      rw [hzero] at hmemory ⊢
      have hlater : ¬ ∃ i, i < ws.length ∧ t = t + 1 + BitVec.ofNat 16 i := fun ⟨i, hi, he⟩ =>
        ne_add_one_add_ofNat t (by omega) he
      exact ((patchBytes_keeps ws (t + 1) _).peek hlater).trans (Bus.peek_patch v hw hmemory)
    | succ j =>
      have hshift : t + BitVec.ofNat 16 (j + 1) = t + 1 + BitVec.ofNat 16 j := by
        rw [Nat.add_comm, BitVec.ofNat_add, ← BitVec.add_assoc]
        rfl
      have hkeeps := b.patch_keeps t w
      rw [hshift] at hmemory ⊢
      exact ih (hkeeps.wf hw) (by omega) hj (hkeeps.memoryAt hmemory)

/-! ### Boot -/

/-- A vector patch changes the bus alone. -/
theorem State.vectorPatch_state (vector : Addr) (bytes : List Byte) (s : State) :
    s.vectorPatch vector bytes = { s with bus := (s.vectorPatch vector bytes).bus } := rfl

theorem vectorPatches_state (patches : List (Addr × List Byte)) (s : State) :
    let t := patches.foldl (fun s v => s.vectorPatch v.1 v.2) s
    t = { s with bus := t.bus } := by
  induction patches generalizing s with
  | nil => rfl
  | cons p ps ih =>
    simp only [List.foldl_cons]
    rw [ih, State.vectorPatch_state]

theorem vectorPatches_keeps (patches : List (Addr × List Byte)) (s : State) :
    Bus.Keeps (fun _ => True) s.bus (patches.foldl (fun s v => s.vectorPatch v.1 v.2) s).bus := by
  induction patches generalizing s with
  | nil => exact .refl _ _
  | cons p ps ih => exact (s.vectorPatch_keeps p.1 p.2).trans (ih _)

/-- Devices are mapped one above the other, so the last one comes first (R43). -/
theorem mapDevices_state (ds : List Device) (s : State) :
    ds.foldl (fun s d => { s with bus := s.bus.map d }) s =
      { s with bus := ⟨ds.reverse ++ s.bus.devices, s.bus.calls⟩ } := by
  induction ds generalizing s with
  | nil => rfl
  | cons d ds ih =>
    rw [List.foldl_cons, ih, List.reverse_cons, List.append_assoc]
    rfl

/-- A reset only reads the bus. -/
theorem State.resetWith_keeps (L : Addr → Prop) (r : ResetDraws) (s : State) : Bus.Keeps L s.bus (s.resetWith r).bus :=
  State.readWord_keeps L Config.resetVector _

theorem mapM_id_of_ok (ds : List Device) : (ds.map Except.ok).mapM id = (Except.ok ds : Except LaunchError _) := by
  induction ds with
  | nil => rfl
  | cons d ds ih => rw [List.map_cons, List.mapM_cons, ih]; rfl

/-- Of devices one of which failed to load, the first error is the outcome. -/
theorem mapM_id_of_error {l : List (Except LaunchError Device)} (h : ∃ e, .error e ∈ l) :
    ∃ e, .error e ∈ l ∧ l.mapM id = .error e := by
  induction l with
  | nil => simp at h
  | cons d ds ih =>
    cases d with
    | error e => exact ⟨e, List.mem_cons_self, rfl⟩
    | ok d =>
      obtain ⟨e, he, hm⟩ := ih (by simpa using h)
      exact ⟨e, List.mem_cons_of_mem _ he, by rw [List.mapM_cons, hm]; rfl⟩

/-- The state of a launch once its devices are mapped, before the patches and the reset (tied to `boot` by `boot_of_ok`). -/
def State.withDevices (p : Params) (queue : List TrapCallback) (mapped : List Device) : State :=
  { State.unassembled p queue with bus := ⟨mapped.reverse, []⟩ }

section
variable {p : Params} {queue : List TrapCallback} {patches : List (Addr × List Byte)} {draws : ResetDraws}

theorem boot_of_error {devices : List (Except LaunchError Device)} {e : LaunchError} (hp : p.wellFormed = true)
    (h : devices.mapM id = .error e) : boot p queue devices patches draws = .error e := by
  rw [boot, if_pos hp, h]

/-- The state a launch of loaded devices gives: what reset makes of the patched bus. -/
theorem boot_of_ok {mapped : List Device} (hp : p.wellFormed = true) :
    boot p queue (mapped.map .ok) patches draws =
      .ok ((patches.foldl (fun s v => s.vectorPatch v.1 v.2) (State.withDevices p queue mapped)).resetWith draws) := by
  rw [boot, if_pos hp, mapM_id_of_ok]
  simp only [mapDevices_state, State.withDevices, State.unassembled, List.append_nil]

end

/-! ### ROM images -/

theorem loadRom_of_fits {base : Addr} {size : Nat} {policy : RomWritePolicy} {image : List Byte}
    (h : image.length ≤ size) : loadRom base size policy (some image) =
      .ok ⟨base, size, .rom (imageMemory base.toNat image) policy⟩ := by
  rw [loadRom, romImageFits, if_pos (decide_eq_true h)]

theorem loadRom_of_too_large {base : Addr} {size : Nat} {policy : RomWritePolicy} {image : List Byte}
    (h : size < image.length) : loadRom base size policy (some image) = .error .imageTooLarge := by
  rw [loadRom, romImageFits, if_neg (by simpa using h)]

end Sys2Proof.Machine

namespace Sys2Proof.Proofs

open Sys2Proof.Machine

/-- Settles O59: reading the target keeps memory where it is, each patched byte is then what its address reads as
(`peek_patchBytes`), and the patch writes at no other address (`patchBytes_keeps`). -/
theorem vectorPatchIsWhatReadsGive : Obligations.VectorPatchIsWhatReadsGive := by
  intro vector bytes s hw hlength target t
  have hread := s.readWord_keeps (fun _ => False) (vector + 1)
  refine ⟨fun j v d hj hd hmemory => ?patched, fun a ha => ?other, rfl⟩
  case patched =>
    exact peek_patchBytes (hread.wf hw) hlength hj (hread.memoryAt ⟨d, hd, hmemory⟩)
  case other =>
    have hnot : ¬ ∃ j, j < bytes.length ∧ a = target + BitVec.ofNat 16 j := fun ⟨j, hj, he⟩ => ha j hj he
    exact ((patchBytes_keeps bytes target _).peek hnot).trans (hread.peek id)

/-- Settles O58: an image that fits is held verbatim (`imageMemory_read`); a launch is refused by name, or is what reset makes
of the mapped and patched devices (`boot_of_ok`), where patching and reset only go through the bus. -/
theorem bootEstablishesTheInvariant : Obligations.BootEstablishesTheInvariant := by
  refine ⟨fun base size policy => ⟨rfl, fun image => ⟨loadRom_of_too_large, fun hfits => ?loaded⟩⟩,
    fun p queue devices patches draws => ⟨fun hp => ?illegal, fun hp herror => ?error, fun hp mapped => ?booted⟩⟩
  case loaded =>
    have hload := loadRom_of_fits (base := base) (policy := policy) hfits
    refine ⟨_, hload, loadRom_wf hload, rfl, fun j v a hj ha => ⟨?contains, ?held⟩⟩
    case contains =>
      obtain ⟨hlt, -⟩ := List.getElem?_eq_some_iff.mp hj
      rw [Device.contains_iff]
      change base.toNat ≤ a.toNat ∧ a.toNat < base.toNat + size
      exact ⟨by omega, by omega⟩
    case held =>
      have hlt := a.isLt
      exact congrArg some (ha ▸ imageMemory_read base.toNat hj (by omega))
  case illegal => rw [boot, hp]; rfl
  case error =>
    obtain ⟨e, he, hm⟩ := mapM_id_of_error herror
    exact ⟨e, he, boot_of_error hp hm⟩
  case booted =>
    rintro rfl hwf
    let s := State.withDevices p queue mapped
    have hkeeps := (vectorPatches_keeps patches s).trans (State.resetWith_keeps _ draws _)
    have hparams := congrArg State.params (vectorPatches_state patches s)
    refine ⟨_, boot_of_ok hp, ⟨hkeeps.wf ?wf, rfl, ?legal⟩, hparams, ?units, ?held⟩
    case wf => exact List.all_eq_true.mpr fun d hd => hwf d (List.mem_reverse.mp hd)
    case legal => exact (congrArg Params.wellFormed hparams).trans hp
    case units => exact hkeeps.units.trans List.map_reverse
    case held =>
      rintro rfl k a
      exact (State.resetWith_keeps (fun _ => False) draws _).heldBy id k

end Sys2Proof.Proofs
end
